-- ==== Sys2Proof/Word.lean ====
section
/-!
DEFINITION. The word types of the block (00_scope R10, R11): `u8`, `u16` and `u32` of the spec. Nothing in this
hardware is signed. Counts and products (`WIDTH_WORDS`, buffer lengths) are plain naturals (92 D28).
-/

namespace Sys2Proof

/-- `u8`: one byte on the wire. -/
abbrev Byte := BitVec 8

/-- `u16`: one wire word (00_scope R8 `WORD_BITS`). -/
abbrev Word := BitVec 16

/-- `u32`: a target memory address or a register pair. -/
abbrev DWord := BitVec 32

end Sys2Proof
end

