-- ==== Sys2Proof/Config.lean ====
section
/-!
DEFINITION. The bus events of 00_scope R13, the constants of R8, the configuration record `Cfg` of R9, and the free
values: constants without a body that stand for what the spec leaves to the board and to the environment.
-/

namespace Sys2Proof

/-- A pin level (00_scope R13). -/
inductive Level where
  | high
  | low
deriving DecidableEq, Repr, Inhabited

/-- The event alphabet of 00_scope R13, one event per call of a bus primitive. The duration of a `SLEEP` event is a
label, written in microseconds (log 11). -/
inductive Event where
  /-- `OPEN(ok)`: the transport was asked for; `ok` is the environment's answer. -/
  | opened (ok : Bool)
  /-- `CLOSE`: the transport was released. -/
  | closed
  /-- `CS(1)`, `CS(0)`: chip-select asserted, deasserted. -/
  | cs (on : Bool)
  /-- `RST(l)`: the reset pin driven to `l`. -/
  | rst (l : Level)
  /-- `RDY(l)`: the ready line sampled; `l` is the environment's answer. -/
  | rdy (l : Level)
  /-- `TX(b)`: one byte transmitted. -/
  | tx (b : Byte)
  /-- `RX(b)`: one byte received; `b` is the environment's answer. -/
  | rx (b : Byte)
  /-- `SLEEP(d)`: a delay. -/
  | sleep (d : Nat)
deriving DecidableEq, Repr, Inhabited

/-- `TMA_ORDER` (00_scope R9; 90 C1): which half of the target address `SET_TMA` writes first. -/
inductive TmaOrder where
  | lowFirst
  | highFirst
deriving DecidableEq, Repr, Inhabited

/-- `INIT_WAIT_KIND` (00_scope R9; 92 D21): what "waits ready" in `INITIALIZE` is. -/
inductive InitWaitKind where
  | gate
  | displayReady
deriving DecidableEq, Repr, Inhabited

/-- `VERSION_CHAR_ORDER` (00_scope R9; 92 D23): which byte of a version word is the earlier character. -/
inductive CharOrder where
  | highFirst
  | lowFirst
deriving DecidableEq, Repr, Inhabited

/-- The `PIXFMT_*` tags of 00_scope R9, pairwise distinct. The field defaults only show that distinct tags exist; the
board's tags are free (log 1). -/
structure PixelTags where
  bpp2 : BitVec 4 := 0
  bpp3 : BitVec 4 := 1
  bpp4 : BitVec 4 := 2
  bpp8 : BitVec 4 := 3
  distinct : [bpp2, bpp3, bpp4, bpp8].Nodup := by decide
deriving DecidableEq, Repr, Inhabited

/-- The `ROT_*` tags of 00_scope R9, pairwise distinct; the defaults as in `PixelTags`. -/
structure RotationTags where
  deg0 : BitVec 4 := 0
  deg90 : BitVec 4 := 1
  deg180 : BitVec 4 := 2
  deg270 : BitVec 4 := 3
  distinct : [deg0, deg90, deg180, deg270].Nodup := by decide
deriving DecidableEq, Repr, Inhabited

/-- The configuration record of 00_scope R9: every value the source document names by role only. It is supplied
before reset is released and never changes (70 R248). -/
structure Cfg where
  cmdSysRun : Word
  cmdStandby : Word
  cmdSleep : Word
  cmdRegRd : Word
  cmdRegWr : Word
  cmdLdImg : Word
  cmdLdImgArea : Word
  cmdLdImgEnd : Word
  cmdDpyArea : Word
  cmdDpyBufArea : Word
  cmdVcom : Word
  cmdGetDevInfo : Word
  /-- The lower memory-converter address register; the higher is this address + 2. -/
  regLisar : Word
  regDpyStatus : Word
  reg1bppCtrl : Word
  /-- `BIT_1BPP`, "exactly one bit set": the position of that bit (log 12). -/
  bit1bpp : Fin 16
  regBgvr : Word
  regPackedCtrl : Word
  valPackedEnable : Word
  regEdc : Word
  endianLittle : BitVec 1
  endianBig : BitVec 1
  pixfmt : PixelTags
  rot : RotationTags
  modeInit : Word
  modeGc16 : Word
  /-- The level of the busy pin that means ready. -/
  readyLevel : Level
  /-- True: the foreground grey byte is bits 15:8 of the `REG_BGVR` value. -/
  bgvrFgHigh : Bool
  refreshEndian : BitVec 1
  refreshRot : BitVec 4
  pixfmt1bppCarrier : BitVec 4
  /-- `XDIV_1BPP`, a positive integer (log 12). -/
  xdiv1bpp : ℕ+
  bg1bpp : Byte
  fg1bpp : Byte
  tmaOrder : TmaOrder
  edcReadback : Bool
  initWaitKind : InitWaitKind
  /-- `POLL_SLEEP`: the back-off sleep between two polls, a duration label (log 11). -/
  pollSleep : Option Nat
  /-- `POLL_BOUND`: the most polls of a wait loop, a positive integer (log 12). -/
  pollBound : Option ℕ+
  versionCharOrder : CharOrder
  tmaMismatchFault : Bool
deriving DecidableEq, Repr, Inhabited

namespace Config

/-! ### Constants of 00_scope R8 -/

/-- `PRE_CMD`. -/
def preCmd : Word := 0x6000
/-- `PRE_WR`. -/
def preWr : Word := 0x0000
/-- `PRE_RD`. -/
def preRd : Word := 0x1000
/-- `EDC_VALUE`. -/
def edcValue : Word := 0x0602
/-- `A2_M641`. -/
def a2M641 : Word := 4
/-- `A2_OTHER`. -/
def a2Other : Word := 6
/-- `T_RST_A` and `T_RST_C`, 200 ms, as a duration label in microseconds. -/
def tRstLong : Nat := 200000
/-- `T_RST_B`, 10 ms. -/
def tRstShort : Nat := 10000
/-- `VCOM_SUB_GET`. -/
def vcomSubGet : Word := 0
/-- `VCOM_SUB_SET`. -/
def vcomSubSet : Word := 1
/-- `SYSINFO_WORDS`. -/
def sysinfoWords : Nat := 20
/-- `CLEAR_FILL`. -/
def clearFill : Word := 0xFFFF
/-- `CLEAR_BPP`. -/
def clearBpp : Nat := 4
/-- "M641" as its four bytes (45 R202). -/
def m641 : List Byte := [0x4D, 0x36, 0x34, 0x31]

/-! ### Free values -/

/-- The board's configuration: a free value, since the spec gives no value of any parameter (log 1). -/
opaque board : Cfg

/-- The configuration at reset: the defaults 00_scope R9 names for the behavioural parameters, every other parameter
the board's free value (log 1). -/
def cfg : Cfg :=
  { board with
    tmaOrder := .lowFirst
    edcReadback := false
    initWaitKind := .gate
    pollSleep := none
    pollBound := none
    versionCharOrder := .highFirst
    tmaMismatchFault := false }

/-- The level the environment answers to a `Sample()` made after the history `h`, where no answer is listed: any level
(93 U9, log 2). -/
opaque freeLevel (h : List Event) : Level

/-- The byte the environment answers to an `RX()` made after the history `h`, where no answer is listed: any byte
(93 U8, log 2). -/
opaque freeByte (h : List Event) : Byte

/-- The environment's answer to an `OpenTransport()` made after the history `h`, where no answer is listed: any answer
(00_scope R13, log 2). -/
opaque freeOpen (h : List Event) : Bool

end Config

end Sys2Proof
end

