-- ==== Sys2Proof/Syntax.lean ====
section
/-!
DEFINITION. The operand records of 10_state R40 and R41, and `Instr`: one constructor for each row of
spec/opcode_table.json, with the operands of 30_encoding R99 (requests) and R83, R86 (wire rows).
-/

namespace Sys2Proof

/-- `LoadImageInfo` (10_state R40): one pending image transfer. -/
structure LoadImageInfo where
  endian : BitVec 1
  pixfmt : BitVec 4
  rot : BitVec 4
  /-- The caller's pixel word buffer (10_state R43). -/
  src : List Word
  target : DWord
deriving DecidableEq, Repr, Inhabited

/-- `AreaImageInfo` (10_state R41): a rectangle in pixels. -/
structure AreaImageInfo where
  x : Word
  y : Word
  w : Word
  h : Word
deriving DecidableEq, Repr, Inhabited

/-- The rows of spec/opcode_table.json. The 37 requests are the closed operation set of 30_encoding R99. The last six
are the wire rows: a frame of one of the five formats of R83, or the header data word of R86 (log 7). -/
inductive Instr where
  /-- `GATE` (40 R120). -/
  | gate
  /-- `SEND_CMD code` (40 R122). -/
  | sendCmd (code : Word)
  /-- `SEND_DATA value` (40 R123). -/
  | sendData (value : Word)
  /-- `SEND_BUF words` (40 R124). -/
  | sendBuf (words : List Word)
  /-- `READ_DATA` (40 R125). -/
  | readData
  /-- `READ_BUF n` (40 R126). -/
  | readBuf (n : Nat)
  /-- `SEND_CMD_ARGS code, words` (40 R127). -/
  | sendCmdArgs (code : Word) (words : List Word)
  /-- `READ_REG addr` (41 R140). -/
  | readReg (addr : Word)
  /-- `WRITE_REG addr, value` (41 R141). -/
  | writeReg (addr value : Word)
  /-- `READ_REG32 addr` (41 R142). -/
  | readReg32 (addr : Word)
  /-- `WRITE_REG32 addr, value` (41 R143). -/
  | writeReg32 (addr : Word) (value : DWord)
  /-- `WIDTH_WORDS W, B` (42 R150). -/
  | widthWords (width : Word) (bpp : Nat)
  /-- `SET_TMA T` (42 R151). -/
  | setTma (target : DWord)
  /-- `LD_IMG_START info` (42 R152). -/
  | ldImgStart (info : LoadImageInfo)
  /-- `LD_IMG_AREA_START info, area` (42 R153). -/
  | ldImgAreaStart (info : LoadImageInfo) (area : AreaImageInfo)
  /-- `LD_IMG_END` (42 R154). -/
  | ldImgEnd
  /-- `HOST_AREA_WRITE info, area, bpp, packed` (42 R155). -/
  | hostAreaWrite (info : LoadImageInfo) (area : AreaImageInfo) (bpp : Nat) (packed : Bool)
  /-- `WAIT_DPY_READY` (43 R165). -/
  | waitDpyReady
  /-- `DPY_AREA x, y, w, h, mode` (43 R166). -/
  | dpyArea (x y w h mode : Word)
  /-- `DPY_AREA_BUF x, y, w, h, mode, addr` (43 R167). -/
  | dpyAreaBuf (x y w h mode : Word) (addr : DWord)
  /-- `DPY_1BPP x, y, w, h, mode, addr, bg, fg` (43 R168). -/
  | dpy1bpp (x y w h mode : Word) (addr : Option DWord) (bg fg : Byte)
  /-- `ENHANCE_DRV` (43 R169). -/
  | enhanceDrv
  /-- `REFRESH_1BPP src, x, y, w, h, mode, target, hold` (44 R181). -/
  | refresh1bpp (src : List Word) (x y w h mode : Word) (target : DWord) (hold : Bool)
  /-- `REFRESH_2BPP src, x, y, w, h, target, hold` (44 R182). -/
  | refresh2bpp (src : List Word) (x y w h : Word) (target : DWord) (hold : Bool)
  /-- `REFRESH_4BPP src, x, y, w, h, target, hold` (44 R183). -/
  | refresh4bpp (src : List Word) (x y w h : Word) (target : DWord) (hold : Bool)
  /-- `REFRESH_8BPP src, x, y, w, h, target, hold` (44 R184). -/
  | refresh8bpp (src : List Word) (x y w h : Word) (target : DWord) (hold : Bool)
  /-- `MULTI_FRAME_1BPP x, y, w, h, target, hold` (44 R185). -/
  | multiFrame1bpp (x y w h : Word) (target : DWord) (hold : Bool)
  /-- `CLEAR_REFRESH target` (44 R186). -/
  | clearRefresh (target : DWord)
  /-- `RESET` (45 R195). -/
  | reset
  /-- `SYS_RUN` (45 R196). -/
  | sysRun
  /-- `STANDBY` (45 R197). -/
  | standby
  /-- `SLEEP` (45 R198). -/
  | sleep
  /-- `GET_SYS_INFO` (45 R199). -/
  | getSysInfo
  /-- `READ_VCOM` (45 R203). -/
  | readVcom
  /-- `WRITE_VCOM value` (45 R204). -/
  | writeVcom (value : Word)
  /-- `INITIALIZE vcom_target` (45 R205). -/
  | initializeDevice (vcomTarget : Word)
  /-- `SHUTDOWN` (45 R206). -/
  | shutdown
  /-- Wire frame `FC`: preamble 0x6000, one command code (30 R83). -/
  | frameFc (code : Word)
  /-- Wire frame `FW1`: preamble 0x0000, one data word (30 R83). -/
  | frameFw1 (data : Word)
  /-- Wire frame `FWN`: preamble 0x0000, n data words (30 R83). -/
  | frameFwn (datas : List Word)
  /-- Wire frame `FR1`: preamble 0x1000, a dummy word and one data word received (30 R83). -/
  | frameFr1
  /-- Wire frame `FRN`: preamble 0x1000, a dummy word and n data words received (30 R83). -/
  | frameFrn (n : Nat)
  /-- The image-load header word: endian, pixel-format and rotation tags (30 R86). -/
  | wordLdHeader (endian : BitVec 1) (pixfmt rot : BitVec 4)
deriving DecidableEq, Repr, Inhabited

end Sys2Proof
end

