-- ==== Sys2Proof/Machine/Operands.lean ====
section
/-!
DEFINITION. Operand assembly (30_encoding R86 to R98): how every operand of every request becomes wire words, and the
values read off received words. Byte order (20_memory R54, R55) is decided here and nowhere else.
-/

namespace Sys2Proof.Machine

open Sys2Proof

/-! ### Bytes and words -/

/-- Bits 15:8 of a word, the byte sent first (20_memory R54). -/
def hiByte (w : Word) : Byte := w.extractLsb' 8 8

/-- Bits 7:0 of a word, the byte sent second (20_memory R54). -/
def loByte (w : Word) : Byte := w.extractLsb' 0 8

/-- The two wire bytes of a word, in wire order (20_memory R54). -/
def wordBytes (w : Word) : List Byte := [hiByte w, loByte w]

/-- A received word: the first byte received is bits 15:8 (20_memory R55). -/
def ofBytes (first second : Byte) : Word := first ++ second

/-! ### 32-bit values (00_scope R11, 30_encoding R98) -/

/-- `lo16(t)`. -/
def lo16 (t : DWord) : Word := t.extractLsb' 0 16

/-- `hi16(t)`. -/
def hi16 (t : DWord) : Word := t.extractLsb' 16 16

/-- `join32(h, l) = (h << 16) | l`. -/
def join32 (h l : Word) : DWord := h ++ l

/-- The address of the high half of a register pair: `(address + 2) mod 2^16` (20_memory R58). -/
def pairHigh (addr : Word) : Word := addr + 2

/-! ### Packed words -/

/-- The image-load header word of 30_encoding R86. -/
def headerWord (endian : BitVec 1) (pixfmt rot : BitVec 4) : Word :=
  (endian.zeroExtend 16 <<< 8) ||| (pixfmt.zeroExtend 16 <<< 4) ||| rot.zeroExtend 16

/-- `HDR(info)` (30_encoding R86). -/
def hdr (info : LoadImageInfo) : Word := headerWord info.endian info.pixfmt info.rot

/-- `BGVR(bg, fg)` (30_encoding R94). -/
def bgvr (c : Cfg) (bg fg : Byte) : Word :=
  if c.bgvrFgHigh then (fg.zeroExtend 16 <<< 8) ||| bg.zeroExtend 16
  else (bg.zeroExtend 16 <<< 8) ||| fg.zeroExtend 16

/-- The mask `BIT_1BPP` (00_scope R9). -/
def mask1bpp (c : Cfg) : Word := 1#16 <<< (c.bit1bpp : Nat)

/-- `v | BIT_1BPP` when `on`, `v & ~BIT_1BPP` otherwise (30_encoding R95). -/
def with1bpp (c : Cfg) (on : Bool) (v : Word) : Word :=
  if on then v ||| mask1bpp c else v &&& ~~~(mask1bpp c)

/-- `WIDTH_WORDS W, B` (42 R150), on naturals. -/
def wordsPerRow (w : Word) (bpp : Nat) : Nat := (w.toNat * bpp + 15) / 16

/-- `x / XDIV_1BPP`, floor division (44 R181). -/
def div1bpp (c : Cfg) (x : Word) : Word := BitVec.ofNat 16 (x.toNat / (c.xdiv1bpp : Nat))

/-! ### Argument lists -/

/-- The arguments of `CMD_LD_IMG_AREA` (30_encoding R90). -/
def loadAreaArgs (info : LoadImageInfo) (area : AreaImageInfo) : List Word :=
  [hdr info, area.x, area.y, area.w, area.h]

/-- The arguments of `CMD_DPY_AREA` (30_encoding R88). -/
def dpyArgs (x y w h mode : Word) : List Word := [x, y, w, h, mode]

/-- The arguments of `CMD_DPY_BUF_AREA` (30_encoding R89). -/
def dpyBufArgs (x y w h mode : Word) (addr : DWord) : List Word := [x, y, w, h, mode, lo16 addr, hi16 addr]

/-- The display call's optional address: `hold` means the default frame buffer (44 R180, R181, R185). -/
def heldAddr (hold : Bool) (target : DWord) : Option DWord := if hold then none else some target

/-! ### Records the refresh family builds -/

/-- The `LoadImageInfo` of 44 R180 with pixel tag `pixfmt`. -/
def refreshInfo (c : Cfg) (pixfmt : BitVec 4) (src : List Word) (target : DWord) : LoadImageInfo :=
  { endian := c.refreshEndian, pixfmt := pixfmt, rot := c.refreshRot, src := src, target := target }

/-- The load area of 44 R181: x and w divided by `XDIV_1BPP`. -/
def area1bpp (c : Cfg) (x y w h : Word) : AreaImageInfo :=
  { x := div1bpp c x, y := y, w := div1bpp c w, h := h }

/-- The pixel buffer of `CLEAR_REFRESH`: every word `CLEAR_FILL`, unbounded length (44 R186). -/
def clearBuf (width height : Word) : List Word :=
  List.replicate (wordsPerRow width Config.clearBpp * height.toNat) Config.clearFill

/-! ### The device-info block -/

/-- The 20 words of the device-info block as a snapshot; none if there are not 20 (45 R199, R200). -/
def infoOf (ws : List Word) : Option (Vector Word 20) :=
  if h : ws.length = 20 then some ⟨ws.toArray, by simpa using h⟩ else none

/-- `TargetAddress = join32(di[3], di[2])` (10_state R23, 45 R200). -/
def targetAddressOf (di : Vector Word 20) : DWord := join32 di[3] di[2]

/-- `DI.FW[0..7]`, words 4 to 11 (45 R200). -/
def fwWords (di : Vector Word 20) : List Word :=
  [di[4], di[5], di[6], di[7], di[8], di[9], di[10], di[11]]

/-- `DI.LUT[0..7]`, words 12 to 19 (45 R200). -/
def lutWords (di : Vector Word 20) : List Word :=
  [di[12], di[13], di[14], di[15], di[16], di[17], di[18], di[19]]

/-- The bytes of one version word in `VERSION_CHAR_ORDER` (45 R201). -/
def charsOf (o : CharOrder) (w : Word) : List Byte :=
  match o with
  | .highFirst => [hiByte w, loByte w]
  | .lowFirst => [loByte w, hiByte w]

/-- `VersionString(ws)`: the bytes before the first 0x00, if there is one (45 R201). -/
def versionString (o : CharOrder) (ws : List Word) : List Byte :=
  (ws.flatMap (charsOf o)).takeWhile (· ≠ 0)

/-- `A2(di)`, the fast-mode number (45 R202). -/
def fastMode (c : Cfg) (di : Vector Word 20) : Word :=
  if versionString c.versionCharOrder (lutWords di) = Config.m641 then Config.a2M641 else Config.a2Other

end Sys2Proof.Machine
end

