-- ==== Sys2Proof/WellFormed.lean ====
section
/-!
DEFINITION. Well-formed instructions. The operand types already bound every operand of a request to its width
(30_encoding R87, R100), and an empty buffer or a zero count is a request the block refuses (60 R226), so only the
wire rows need a check.
-/

namespace Sys2Proof

/-- A `FRAME_FWN` or `FRAME_FRN` row stands for its own format: with one data word it is `FW1` or `FR1`, whose wire
bytes are identical, and with none it is no frame (30_encoding R81, R83). -/
def Instr.wellFormed : Instr → Bool
  | .frameFwn ds => decide (2 ≤ ds.length)
  | .frameFrn n => decide (2 ≤ n)
  | .gate | .sendCmd _ | .sendData _ | .sendBuf _ | .readData | .readBuf _ | .sendCmdArgs _ _ => true
  | .readReg _ | .writeReg _ _ | .readReg32 _ | .writeReg32 _ _ => true
  | .widthWords _ _ | .setTma _ | .ldImgStart _ | .ldImgAreaStart _ _ | .ldImgEnd | .hostAreaWrite _ _ _ _ => true
  | .waitDpyReady | .dpyArea _ _ _ _ _ | .dpyAreaBuf _ _ _ _ _ _ | .dpy1bpp _ _ _ _ _ _ _ _ | .enhanceDrv => true
  | .refresh1bpp _ _ _ _ _ _ _ _ | .refresh2bpp _ _ _ _ _ _ _ | .refresh4bpp _ _ _ _ _ _ _ => true
  | .refresh8bpp _ _ _ _ _ _ _ | .multiFrame1bpp _ _ _ _ _ _ | .clearRefresh _ => true
  | .reset | .sysRun | .standby | .sleep | .getSysInfo | .readVcom | .writeVcom _ => true
  | .initializeDevice _ | .shutdown => true
  | .frameFc _ | .frameFw1 _ | .frameFr1 | .wordLdHeader _ _ _ => true

end Sys2Proof
end

