-- ==== Sys2Proof/Decode.lean ====
section
/-!
DEFINITION. What a host can put on the request port (30_encoding R99) or on the wire (R80 to R86), the decoder, total
on all of it and rejecting by name, the encoder, and the wire decoding of a trace (R103).
-/

namespace Sys2Proof

open Sys2Proof.Machine

/-! ### What is decoded -/

/-- One operand of a request, with its type (30_encoding R99; the record has no binary form, log 8). -/
inductive Operand where
  | u8 (v : Byte)
  | u16 (v : Word)
  | u32 (v : DWord)
  | optU32 (v : Option DWord)
  | nat (v : Nat)
  | flag (v : Bool)
  | words (v : List Word)
  | info (v : LoadImageInfo)
  | area (v : AreaImageInfo)
deriving DecidableEq, Repr, Inhabited

/-- The types of operands (30_encoding R99). -/
inductive OperandKind where
  | u8 | u16 | u32 | optU32 | nat | flag | words | info | area
deriving DecidableEq, Repr, Inhabited

/-- An item of the request port: a request of 30_encoding R99, or bytes for the framing layer to put on the wire
(a frame of R83, or the header word of R86; log 7). -/
inductive PortItem where
  | request (op : BitVec 8) (args : List Operand)
  | wire (bytes : List Byte)
deriving DecidableEq, Repr, Inhabited

/-- Why an item of the port is no instruction. -/
inductive DecodeError where
  /-- The op number is not in 30_encoding R99 (R100). -/
  | unknownOp
  /-- The operand record does not have the types of R99: a request the spec says cannot be written down (R100). -/
  | operandTypes
  /-- The bytes are no frame of R83 and no two bytes of a header word (R103). -/
  | notAFrame
  /-- A frame that opens with another word than the three preambles (R82). -/
  | unknownPreamble
  /-- A header word whose bits 15:9 are not zero (R86). -/
  | headerBits
deriving DecidableEq, Repr, Inhabited

/-- A frame as seen from the controller's side (30_encoding R103). -/
inductive WireFrame where
  | command (code : Word)
  | write (datas : List Word)
  | read (dummy : Word) (datas : List Word)
deriving DecidableEq, Repr, Inhabited

/-! ### Operand records -/

/-- The type of an operand. -/
def Operand.kind : Operand → OperandKind
  | .u8 _ => .u8
  | .u16 _ => .u16
  | .u32 _ => .u32
  | .optU32 _ => .optU32
  | .nat _ => .nat
  | .flag _ => .flag
  | .words _ => .words
  | .info _ => .info
  | .area _ => .area

/-- The all-zero operand of a type: what "every bit above nbits is 0" means for an operand that has no binary form
(log 8). -/
def OperandKind.zero : OperandKind → Operand
  | .u8 => .u8 0
  | .u16 => .u16 0
  | .u32 => .u32 0
  | .optU32 => .optU32 none
  | .nat => .nat 0
  | .flag => .flag false
  | .words => .words []
  | .info => .info { endian := 0, pixfmt := 0, rot := 0, src := [], target := 0 }
  | .area => .area { x := 0, y := 0, w := 0, h := 0 }

/-- The operand column of 30_encoding R99; none for an op number R99 does not have. -/
def signature (op : Nat) : Option (List OperandKind) :=
  match op with
  | 0x01 => some []
  | 0x02 => some [.u16]
  | 0x03 => some [.u16]
  | 0x04 => some [.words]
  | 0x05 => some []
  | 0x06 => some [.nat]
  | 0x07 => some [.u16, .words]
  | 0x10 => some [.u16]
  | 0x11 => some [.u16, .u16]
  | 0x12 => some [.u16]
  | 0x13 => some [.u16, .u32]
  | 0x20 => some [.u16, .nat]
  | 0x21 => some [.u32]
  | 0x22 => some [.info]
  | 0x23 => some [.info, .area]
  | 0x24 => some []
  | 0x25 => some [.info, .area, .nat, .flag]
  | 0x30 => some []
  | 0x31 => some [.u16, .u16, .u16, .u16, .u16]
  | 0x32 => some [.u16, .u16, .u16, .u16, .u16, .u32]
  | 0x33 => some [.u16, .u16, .u16, .u16, .u16, .optU32, .u8, .u8]
  | 0x34 => some []
  | 0x40 => some [.words, .u16, .u16, .u16, .u16, .u16, .u32, .flag]
  | 0x41 => some [.words, .u16, .u16, .u16, .u16, .u32, .flag]
  | 0x42 => some [.words, .u16, .u16, .u16, .u16, .u32, .flag]
  | 0x43 => some [.words, .u16, .u16, .u16, .u16, .u32, .flag]
  | 0x44 => some [.u16, .u16, .u16, .u16, .u32, .flag]
  | 0x45 => some [.u32]
  | 0x50 => some []
  | 0x51 => some []
  | 0x52 => some []
  | 0x53 => some []
  | 0x54 => some []
  | 0x55 => some []
  | 0x56 => some [.u16]
  | 0x57 => some [.u16]
  | 0x58 => some []
  | _ => none

/-- The request `op` of 30_encoding R99 with the operand record `args`, if that record has the operation's types. -/
def requestOf (op : Nat) (args : List Operand) : Option Instr :=
  match op with
  | 0x01 => match args with | [] => some .gate | _ => none
  | 0x02 => match args with | [.u16 code] => some (.sendCmd code) | _ => none
  | 0x03 => match args with | [.u16 value] => some (.sendData value) | _ => none
  | 0x04 => match args with | [.words ws] => some (.sendBuf ws) | _ => none
  | 0x05 => match args with | [] => some .readData | _ => none
  | 0x06 => match args with | [.nat n] => some (.readBuf n) | _ => none
  | 0x07 => match args with | [.u16 code, .words ws] => some (.sendCmdArgs code ws) | _ => none
  | 0x10 => match args with | [.u16 addr] => some (.readReg addr) | _ => none
  | 0x11 => match args with | [.u16 addr, .u16 value] => some (.writeReg addr value) | _ => none
  | 0x12 => match args with | [.u16 addr] => some (.readReg32 addr) | _ => none
  | 0x13 => match args with | [.u16 addr, .u32 value] => some (.writeReg32 addr value) | _ => none
  | 0x20 => match args with | [.u16 w, .nat b] => some (.widthWords w b) | _ => none
  | 0x21 => match args with | [.u32 t] => some (.setTma t) | _ => none
  | 0x22 => match args with | [.info i] => some (.ldImgStart i) | _ => none
  | 0x23 => match args with | [.info i, .area a] => some (.ldImgAreaStart i a) | _ => none
  | 0x24 => match args with | [] => some .ldImgEnd | _ => none
  | 0x25 => match args with | [.info i, .area a, .nat b, .flag p] => some (.hostAreaWrite i a b p) | _ => none
  | 0x30 => match args with | [] => some .waitDpyReady | _ => none
  | 0x31 => match args with | [.u16 x, .u16 y, .u16 w, .u16 h, .u16 m] => some (.dpyArea x y w h m) | _ => none
  | 0x32 => match args with
    | [.u16 x, .u16 y, .u16 w, .u16 h, .u16 m, .u32 t] => some (.dpyAreaBuf x y w h m t)
    | _ => none
  | 0x33 => match args with
    | [.u16 x, .u16 y, .u16 w, .u16 h, .u16 m, .optU32 t, .u8 bg, .u8 fg] => some (.dpy1bpp x y w h m t bg fg)
    | _ => none
  | 0x34 => match args with | [] => some .enhanceDrv | _ => none
  | 0x40 => match args with
    | [.words src, .u16 x, .u16 y, .u16 w, .u16 h, .u16 m, .u32 t, .flag k] => some (.refresh1bpp src x y w h m t k)
    | _ => none
  | 0x41 => match args with
    | [.words src, .u16 x, .u16 y, .u16 w, .u16 h, .u32 t, .flag k] => some (.refresh2bpp src x y w h t k)
    | _ => none
  | 0x42 => match args with
    | [.words src, .u16 x, .u16 y, .u16 w, .u16 h, .u32 t, .flag k] => some (.refresh4bpp src x y w h t k)
    | _ => none
  | 0x43 => match args with
    | [.words src, .u16 x, .u16 y, .u16 w, .u16 h, .u32 t, .flag k] => some (.refresh8bpp src x y w h t k)
    | _ => none
  | 0x44 => match args with
    | [.u16 x, .u16 y, .u16 w, .u16 h, .u32 t, .flag k] => some (.multiFrame1bpp x y w h t k)
    | _ => none
  | 0x45 => match args with | [.u32 t] => some (.clearRefresh t) | _ => none
  | 0x50 => match args with | [] => some .reset | _ => none
  | 0x51 => match args with | [] => some .sysRun | _ => none
  | 0x52 => match args with | [] => some .standby | _ => none
  | 0x53 => match args with | [] => some .sleep | _ => none
  | 0x54 => match args with | [] => some .getSysInfo | _ => none
  | 0x55 => match args with | [] => some .readVcom | _ => none
  | 0x56 => match args with | [.u16 v] => some (.writeVcom v) | _ => none
  | 0x57 => match args with | [.u16 v] => some (.initializeDevice v) | _ => none
  | 0x58 => match args with | [] => some .shutdown | _ => none
  | _ => none

/-- Decode a request: `UnknownOp` is told from an ill-typed record (30_encoding R100). -/
def decodeRequest (op : BitVec 8) (args : List Operand) : Except DecodeError Instr :=
  match requestOf op.toNat args, signature op.toNat with
  | some i, _ => .ok i
  | none, some _ => .error .operandTypes
  | none, none => .error .unknownOp

/-! ### Wire bytes -/

/-- Bytes paired two by two into words (30_encoding R80, R103); none for an odd number of bytes. -/
def pairUp : List Byte → Option (List Word)
  | [] => some []
  | [_] => none
  | a :: b :: rest => (pairUp rest).map (ofBytes a b :: ·)

/-- The frame whose chip-select scope holds the transmitted bytes `tx` and the received bytes `rx`
(30_encoding R81, R103). -/
def classify (tx rx : List Byte) : Except DecodeError WireFrame :=
  match pairUp tx, pairUp rx with
  | some (p :: ws), some rs =>
    if p = Config.preCmd then
      match ws, rs with
      | [c], [] => .ok (.command c)
      | _, _ => .error .notAFrame
    else if p = Config.preWr then
      match ws, rs with
      | d :: ds, [] => .ok (.write (d :: ds))
      | _, _ => .error .notAFrame
    else if p = Config.preRd then
      match ws, rs with
      | [], x :: r :: rs => .ok (.read x (r :: rs))
      | _, _ => .error .notAFrame
    else .error .unknownPreamble
  | _, _ => .error .notAFrame

/-- The bytes of one frame in wire order, cut into transmitted and received ones: in a read frame every byte after the
preamble is received (30_encoding R83). -/
def splitFrame (bytes : List Byte) : List Byte × List Byte :=
  if bytes.take 2 = wordBytes Config.preRd then (bytes.take 2, bytes.drop 2) else (bytes, [])

/-- The opcode-table row of a frame: one data word is `FW1` or `FR1` (30_encoding R83). -/
def instrOfFrame : WireFrame → Instr
  | .command c => .frameFc c
  | .write [d] => .frameFw1 d
  | .write ds => .frameFwn ds
  | .read _ [_] => .frameFr1
  | .read _ rs => .frameFrn rs.length

/-- The header word `w` as an instruction; bits 15:9 are zero (30_encoding R86). -/
def decodeHeader (w : Word) : Except DecodeError Instr :=
  if w.extractLsb' 9 7 = 0 then
    .ok (.wordLdHeader (w.extractLsb' 8 1) (w.extractLsb' 4 4) (w.extractLsb' 0 4))
  else .error .headerBits

/-- Decode wire bytes: two bytes are a header word (30_encoding R86), more are a frame (R83). -/
def decodeWire (bytes : List Byte) : Except DecodeError Instr :=
  match bytes with
  | [a, b] => decodeHeader (ofBytes a b)
  | _ => (classify (splitFrame bytes).1 (splitFrame bytes).2).map instrOfFrame

/-- The decoder, total on every item. -/
def decode : PortItem → Except DecodeError Instr
  | .request op args => decodeRequest op args
  | .wire bytes => decodeWire bytes

/-! ### The encoder -/

/-- Words as wire bytes (20_memory R54). -/
def bytesOf (ws : List Word) : List Byte := ws.flatMap wordBytes

/-- The item that stands for an instruction. The received words of a read frame are written as zeros (log 8). -/
def encode : Instr → PortItem
  | .gate => .request 0x01 []
  | .sendCmd code => .request 0x02 [.u16 code]
  | .sendData value => .request 0x03 [.u16 value]
  | .sendBuf ws => .request 0x04 [.words ws]
  | .readData => .request 0x05 []
  | .readBuf n => .request 0x06 [.nat n]
  | .sendCmdArgs code ws => .request 0x07 [.u16 code, .words ws]
  | .readReg addr => .request 0x10 [.u16 addr]
  | .writeReg addr value => .request 0x11 [.u16 addr, .u16 value]
  | .readReg32 addr => .request 0x12 [.u16 addr]
  | .writeReg32 addr value => .request 0x13 [.u16 addr, .u32 value]
  | .widthWords w b => .request 0x20 [.u16 w, .nat b]
  | .setTma t => .request 0x21 [.u32 t]
  | .ldImgStart i => .request 0x22 [.info i]
  | .ldImgAreaStart i a => .request 0x23 [.info i, .area a]
  | .ldImgEnd => .request 0x24 []
  | .hostAreaWrite i a b p => .request 0x25 [.info i, .area a, .nat b, .flag p]
  | .waitDpyReady => .request 0x30 []
  | .dpyArea x y w h m => .request 0x31 [.u16 x, .u16 y, .u16 w, .u16 h, .u16 m]
  | .dpyAreaBuf x y w h m t => .request 0x32 [.u16 x, .u16 y, .u16 w, .u16 h, .u16 m, .u32 t]
  | .dpy1bpp x y w h m t bg fg =>
    .request 0x33 [.u16 x, .u16 y, .u16 w, .u16 h, .u16 m, .optU32 t, .u8 bg, .u8 fg]
  | .enhanceDrv => .request 0x34 []
  | .refresh1bpp src x y w h m t k =>
    .request 0x40 [.words src, .u16 x, .u16 y, .u16 w, .u16 h, .u16 m, .u32 t, .flag k]
  | .refresh2bpp src x y w h t k => .request 0x41 [.words src, .u16 x, .u16 y, .u16 w, .u16 h, .u32 t, .flag k]
  | .refresh4bpp src x y w h t k => .request 0x42 [.words src, .u16 x, .u16 y, .u16 w, .u16 h, .u32 t, .flag k]
  | .refresh8bpp src x y w h t k => .request 0x43 [.words src, .u16 x, .u16 y, .u16 w, .u16 h, .u32 t, .flag k]
  | .multiFrame1bpp x y w h t k => .request 0x44 [.u16 x, .u16 y, .u16 w, .u16 h, .u32 t, .flag k]
  | .clearRefresh t => .request 0x45 [.u32 t]
  | .reset => .request 0x50 []
  | .sysRun => .request 0x51 []
  | .standby => .request 0x52 []
  | .sleep => .request 0x53 []
  | .getSysInfo => .request 0x54 []
  | .readVcom => .request 0x55 []
  | .writeVcom v => .request 0x56 [.u16 v]
  | .initializeDevice v => .request 0x57 [.u16 v]
  | .shutdown => .request 0x58 []
  | .frameFc c => .wire (bytesOf [Config.preCmd, c])
  | .frameFw1 d => .wire (bytesOf [Config.preWr, d])
  | .frameFwn ds => .wire (bytesOf (Config.preWr :: ds))
  | .frameFr1 => .wire (bytesOf [Config.preRd, 0, 0])
  | .frameFrn n => .wire (bytesOf (Config.preRd :: 0 :: List.replicate n 0))
  | .wordLdHeader e p q => .wire (wordBytes (headerWord e p q))

/-! ### The opcode table's own numbering -/

/-- The `n` bytes of `w`, most significant first: the table reads a row as one number whose least significant bit is
bit 0, so its first wire byte is the most significant one. -/
def bytesBE : Nat → Nat → List Byte
  | 0, _ => []
  | n + 1, w => BitVec.ofNat 8 (w / 256 ^ n) :: bytesBE n w

/-- A frame of which the table gives the preamble alone: the words after it are zeros. -/
def padFrame (bytes : List Byte) : List Byte :=
  if bytes = wordBytes Config.preCmd then bytes ++ wordBytes 0
  else if bytes.take 2 = wordBytes Config.preRd then bytes ++ List.replicate (6 - bytes.length) 0
  else bytes

/-- The port item of an opcode-table word: eight bits are an op number, with all-zero operands; more are wire bytes. -/
def tableItem (nbits w : Nat) : PortItem :=
  if nbits = 8 then
    .request (BitVec.ofNat 8 w) (((signature (w % 256)).getD []).map OperandKind.zero)
  else .wire (padFrame (bytesBE (nbits / 8) w))

/-- The instruction the decoder reads from an opcode-table word. -/
def decodeTableWord (nbits w : Nat) : Option Instr := (decode (tableItem nbits w)).toOption

/-! ### Wire decoding of a trace (30_encoding R103) -/

/-- The frames of a trace, oldest first. `scope` holds the bytes transmitted and received since the last `CS(1)`, none
outside a scope; a byte outside a scope, a byte transmitted after one was received, a nested or unmatched chip-select
event, an unfinished scope and a scope that is no frame give none. -/
def framesFrom : Option (List Byte × List Byte) → List Event → Option (List WireFrame)
  | none, [] => some []
  | some _, [] => none
  | none, .cs true :: es => framesFrom (some ([], [])) es
  | some (tx, rx), .cs false :: es =>
    match classify tx rx, framesFrom none es with
    | .ok f, some fs => some (f :: fs)
    | _, _ => none
  | some (tx, []), .tx b :: es => framesFrom (some (tx ++ [b], [])) es
  | some (_, _ :: _), .tx _ :: _ => none
  | some (tx, rx), .rx b :: es => framesFrom (some (tx, rx ++ [b])) es
  | some _, .cs true :: _ => none
  | none, .cs false :: _ => none
  | none, .tx _ :: _ => none
  | none, .rx _ :: _ => none
  | sc, .opened _ :: es => framesFrom sc es
  | sc, .closed :: es => framesFrom sc es
  | sc, .rst _ :: es => framesFrom sc es
  | sc, .rdy _ :: es => framesFrom sc es
  | sc, .sleep _ :: es => framesFrom sc es

/-- The frames of a trace that starts outside a scope. -/
def frames (es : List Event) : Option (List WireFrame) := framesFrom none es

end Sys2Proof
end

