-- ==== Sys2Proof/Machine/State.lean ====
section
/-!
DEFINITION. The state of the block (10_state R20), the outcomes of a request (00_scope R14), the primitives an
operation is expanded into (30_encoding R102, 10_state R27), and the environment as plain data.
-/

namespace Sys2Proof.Machine

open Sys2Proof

/-! ### Faults, refusals and results -/

/-- The loop a timeout names (60 R221). -/
inductive WaitSite where
  | gate
  | display
deriving DecidableEq, Repr, Inhabited

/-- The closed fault set of 60 R221. A fault ends the operation and is its result; the block goes on and the host may
issue any request (60 R229, R230), so these are carried by `Response.fault` in a next state and no step of the model
answers `Outcome.fault` (log 5, safe). -/
inductive Fault where
  /-- Raised by `INITIALIZE` when the environment answers false to the open (60 R222). Safe. -/
  | transportOpenFailed
  /-- Raised by `SET_TMA` and every operation that contains it, only when `TMA_MISMATCH_FAULT` is set (60 R223). Safe. -/
  | tmaMismatch (written readBack : DWord)
  /-- Raised by the gate and the display wait, and every operation that contains them, only when `POLL_BOUND` is set
  (60 R225). Safe. -/
  | waitTimeout (site : WaitSite)
deriving DecidableEq, Repr, Inhabited

/-- The refusals. The first six are the closed refusal set of 60 R226: results of a request, carried by
`Response.refused` in a next state (log 5, safe). The others stop the model (`Outcome.refused`). -/
inductive Refusal where
  /-- The session is closed: every operation but `INITIALIZE` and `WIDTH_WORDS` (60 R226). Safe. -/
  | notOpen
  /-- The session is open: `INITIALIZE` (60 R226). Safe. -/
  | alreadyOpen
  /-- A buffer of length 0 or a count of 0 (60 R226). Safe. -/
  | emptyBuffer
  /-- `S.DI` or `S.A2` is read while it is none (10_state R38, 60 R226). Safe. -/
  | unwrittenRegister
  /-- An op number not in 30_encoding R99: answered by the request port (60 R226). Safe. -/
  | unknownOp
  /-- A request while another runs: answered by the request port (60 R226). Safe. -/
  | busy
  /-- `step` stops: the port holds an item that is no request the spec can write down and no frame (30_encoding R82,
  R100, R103; log 8). No instruction raises it. Safe. -/
  | notARequest (why : DecodeError)
  /-- An instruction with no meaning in this model. No arm of `exec` raises it. Safe. -/
  | notModelled (mnemonic : String)
deriving DecidableEq, Repr, Inhabited

/-- The result column of 30_encoding R99. -/
inductive Value where
  | nothing
  | word (v : Word)
  | dword (v : DWord)
  | words (v : List Word)
  | nat (v : Nat)
deriving DecidableEq, Repr, Inhabited

/-- How a request ended (00_scope R14). A hang is no response: the operation stays in `S.SEQ`. -/
inductive Response where
  | ok (v : Value)
  | fault (f : Fault)
  | refused (r : Refusal)
deriving DecidableEq, Repr, Inhabited

/-! ### The sequencer -/

/-- The primitives an operation is expanded into (30_encoding R102), each a call of a bus primitive of 00_scope R13 or
a test the pseudocode makes between two of them. Where one stands in the list is the position of 10_state R27. -/
inductive Prim where
  /-- `Gate()` (40 R120). -/
  | gate
  /-- `CS(1)`, `CS(0)`. -/
  | cs (on : Bool)
  /-- `TX16(w)` (40 R121). -/
  | tx (w : Word)
  /-- `TX16(v | BIT_1BPP)` or `TX16(v & ~BIT_1BPP)`, v the word read last (43 R168). -/
  | txMasked (on : Bool)
  /-- `dummy <- RX16()`, discarded (40 R125). -/
  | rxDummy
  /-- `result[i] <- RX16()` (40 R126). -/
  | rxWord
  /-- The test of the display-wait loop on the status word just read (43 R165). With `defer`, a timeout is kept for
  `raiseLate` (43 R168). -/
  | dpyTest (defer : Bool)
  /-- Raise the timeout a deferring `dpyTest` kept (43 R168). -/
  | raiseLate
  /-- Compare the two words read back with the target address (42 R151). -/
  | tmaCheck (target : DWord)
  /-- `RST(l)`. -/
  | rst (l : Level)
  /-- `SLEEP(d)`. -/
  | sleep (d : Nat)
  /-- `OpenTransport()` and what follows it (45 R205). -/
  | claim
  /-- `CloseTransport()` and what follows it (45 R206). -/
  | release
  /-- `S.DI <- di`, `S.A2 <- A2(di)` (45 R205). -/
  | storeInfo
  /-- The operation ends here if the VCOM just read equals `v` (45 R205). -/
  | endIfVcom (v : Word)
deriving DecidableEq, Repr, Inhabited

/-- Which of the received words is the operation's result (30_encoding R99). -/
inductive Ret where
  | nothing
  /-- The first word received. -/
  | word
  /-- Low word received first, then high word (41 R142). -/
  | dword
  /-- Every word received. -/
  | words
  /-- The first 20 words received (45 R205). -/
  | info
deriving DecidableEq, Repr, Inhabited

/-- An operation in progress: `S.SEQ = (operation, position)` (10_state R27) and the pseudocode's local variables. -/
structure Job where
  op : Instr
  /-- The position: the primitives still to be performed. -/
  todo : List Prim
  ret : Ret
  /-- The data words received so far, oldest first; a status word is dropped once it is tested. -/
  got : List Word
  /-- `k` of the gate's loop (40 R120). -/
  gatePolls : Nat
  /-- `k` of the display-wait loop (43 R165). -/
  dpyPolls : Nat
  /-- `r = WaitTimeout` in 43 R168. -/
  late : Bool
  /-- A fault closes the transport, if it is open (45 R205, last line). -/
  closeOnFault : Bool
deriving DecidableEq, Repr, Inhabited

/-- `S.SEQ` (10_state R20, R27). -/
inductive Seq where
  | idle
  | running (j : Job)
deriving DecidableEq, Repr, Inhabited

/-- The chip-select latch `S.CS` (10_state R20, R25). -/
inductive CsLatch where
  | undriven
  | deasserted
  | asserted
deriving DecidableEq, Repr, Inhabited

/-- The reset-pin latch `S.RST` (10_state R20, R25). -/
inductive RstLatch where
  | undriven
  | driven (l : Level)
deriving DecidableEq, Repr, Inhabited

/-! ### The environment -/

/-- Answers the environment will give, next first; past their end every answer is a free value (log 2). -/
structure Tape where
  rdy : List Level
  rx : List Byte
  opens : List Bool
deriving DecidableEq, Repr, Inhabited

/-- The fake controller backend of 92 D29 (log 3). It is not part of the block. -/
structure Backend where
  /-- The register map as address and word pairs in canonical form: rising addresses, no zero word. -/
  regs : List (Nat × Word)
  vcom : Word
  devinfo : Vector Word 20
  busyLeft : Nat
  busyN : Nat
  cmd : Option Word
  args : List Word
  /-- The bytes transmitted and received in the open scope. -/
  scope : Option (List Byte × List Byte)
  /-- The backend has refused a frame: the test is ill-formed. -/
  refusedFrame : Bool
deriving DecidableEq, Repr

/-- Who answers `Sample()`, `RX()` and `OpenTransport()` (10_state R29). -/
inductive Env where
  | tape (t : Tape)
  | fake (b : Backend)
deriving DecidableEq, Repr

/-! ### The state -/

/-- The state of 10_state R20, the parameters of its steps (R29) and the model's request and result ports. -/
structure State where
  /-- `Cfg` (00_scope R9). -/
  cfg : Cfg
  /-- `S.OPEN` (10_state R21). -/
  isOpen : Bool
  /-- `S.DI[0..19]` (10_state R22). -/
  di : Option (Vector Word 20)
  /-- `S.A2` (10_state R24). -/
  a2 : Option Word
  /-- `S.CS` (10_state R25). -/
  cs : CsLatch
  /-- `S.RST` (10_state R25). -/
  rst : RstLatch
  /-- `S.TMA_MISMATCH` (10_state R26). -/
  tmaMismatch : Bool
  /-- `S.SEQ` (10_state R27). -/
  seq : Seq
  /-- `S.T` (10_state R28), oldest event first. -/
  trace : List Event
  /-- The host's requests not yet issued, next first (30_encoding R101; log 6). -/
  port : List PortItem
  /-- How the last operation ended; none while one runs and before the first (log 5). -/
  resp : Option Response
  /-- The environment (10_state R29; log 2). -/
  env : Env
deriving DecidableEq, Repr

/-- The state after reset of the block (10_state R20, R39, 70 R245). `cfg`, `port`, `resp` and `env` are the model's
own fields: free constants, no request, no result, no listed answer (log 1, 2, 5, 6). -/
def State.reset : State :=
  { cfg := Config.cfg
    isOpen := false
    di := none
    a2 := none
    cs := .undriven
    rst := .undriven
    tmaMismatch := false
    seq := .idle
    trace := []
    port := []
    resp := none
    env := .tape { rdy := [], rx := [], opens := [] } }

/-- What the port gives `step` to do. -/
inductive Fetched where
  /-- An operation is in progress: go on with it. -/
  | resume (j : Job)
  /-- No operation and no request: wait. -/
  | wait
  /-- A request with an unknown op number, taken off the port. -/
  | unknown (s : State)
  /-- An item that is no instruction. -/
  | reject (why : DecodeError)
  /-- An instruction, taken off the port. -/
  | run (i : Instr) (s : State)
deriving DecidableEq, Repr

/-- What performing one primitive leads to. -/
inductive Flow where
  /-- Go on with the next primitive. -/
  | go (j : Job) (s : State)
  /-- A poll failed: the operation waits, with `again` to be performed before the rest. -/
  | hold (again : List Prim) (j : Job) (s : State)
  /-- The operation ends. -/
  | done (j : Job) (s : State)
  /-- A fault ends the operation. -/
  | raise (f : Fault) (j : Job) (s : State)
deriving DecidableEq, Repr

end Sys2Proof.Machine
end

