-- ==== Sys2Proof/Machine/Backend.lean ====
section
/-!
DEFINITION. The environment: answers to `Sample()`, `RX()` and `OpenTransport()` (00_scope R13), either from a list
and then free, or from the fake controller backend of 92 D29.
-/

namespace Sys2Proof.Machine

open Sys2Proof

/-! ### The backend's register map -/

/-- The word at an address; an unlisted address reads zero ("initially all zero", 92 D29). -/
def regsRead : List (Nat × Word) → Nat → Word
  | [], _ => 0
  | (b, w) :: rest, a => if a = b then w else regsRead rest a

/-- Write a word and keep the canonical form: a zero word is not listed. -/
def regsWrite : List (Nat × Word) → Nat → Word → List (Nat × Word)
  | [], a, v => if v = 0 then [] else [(a, v)]
  | (b, w) :: rest, a, v =>
    if a < b then (if v = 0 then (b, w) :: rest else (a, v) :: (b, w) :: rest)
    else if a = b then (if v = 0 then rest else (a, v) :: rest)
    else (b, w) :: regsWrite rest a v

/-- The canonical form: addresses strictly rising, no zero word. -/
def regsWf : List (Nat × Word) → Bool
  | [] => true
  | (a, w) :: rest => (w != 0) && rest.all (fun p => decide (a < p.1)) && regsWf rest

/-! ### The backend of 92 D29 -/

/-- The `i`-th data word of a read frame; none where the backend refuses the frame (92 D29, read frame; log 3). -/
def backendData (c : Cfg) (b : Backend) (i : Nat) : Option Word :=
  match b.args with
  | [] => if b.cmd = some c.cmdGetDevInfo then b.devinfo.toList[i]? else none
  | [a] =>
    if b.cmd = some c.cmdRegRd then
      if i = 0 then
        if a = c.regDpyStatus ∧ 0 < b.busyLeft then some 1 else some (regsRead b.regs a.toNat)
      else none
    else if b.cmd = some c.cmdVcom ∧ a = Config.vcomSubGet then
      if i = 0 then some b.vcom else none
    else if b.cmd = some c.cmdGetDevInfo then b.devinfo.toList[i]?
    else none
  | _ => if b.cmd = some c.cmdGetDevInfo then b.devinfo.toList[i]? else none

/-- The `k`-th byte received in a read frame: two bytes of the dummy word 0x0000, then the data words (92 D29). -/
def backendByte (c : Cfg) (b : Backend) (k : Nat) : Option Byte :=
  if k < 2 then some 0
  else (backendData c b ((k - 2) / 2)).map (fun w => if k % 2 = 0 then hiByte w else loByte w)

/-- What a write frame does, once its words are in `args` (92 D29). -/
def backendWrite (c : Cfg) (b : Backend) : Backend :=
  match b.args with
  | [a, v] =>
    { b with
      regs := if b.cmd = some c.cmdRegWr then regsWrite b.regs a.toNat v else b.regs
      vcom := if b.cmd = some c.cmdVcom ∧ a = Config.vcomSubSet then v else b.vcom }
  | [_, _, _, _, _] => if b.cmd = some c.cmdDpyArea then { b with busyLeft := b.busyN } else b
  | [_, _, _, _, _, _, _] => if b.cmd = some c.cmdDpyBufArea then { b with busyLeft := b.busyN } else b
  | _ => b

/-- What the backend does at the `CS(0)` of a frame (92 D29). -/
def backendFrame (c : Cfg) (b : Backend) : Except DecodeError WireFrame → Backend
  | .ok (.command code) => { b with cmd := some code, args := [] }
  | .ok (.write ws) => backendWrite c { b with args := b.args ++ ws }
  | .ok (.read _ ws) =>
    { b with
      busyLeft := if b.cmd = some c.cmdRegRd ∧ b.args = [c.regDpyStatus] then b.busyLeft - 1 else b.busyLeft
      refusedFrame := b.refusedFrame || (backendData c b (ws.length - 1)).isNone }
  | .error _ => { b with refusedFrame := true }

/-- The backend sees one event of the trace (92 D29: it parses the trace into frames and acts at each `CS(0)`). -/
def backendObserve (c : Cfg) (b : Backend) : Event → Backend
  | .cs true => { b with scope := some ([], []) }
  | .cs false =>
    match b.scope with
    | some (tx, rx) => { backendFrame c b (classify tx rx) with scope := none }
    | none => b
  | .tx v =>
    match b.scope with
    | some (tx, rx) => { b with scope := some (tx ++ [v], rx) }
    | none => b
  | .rx v =>
    match b.scope with
    | some (tx, rx) => { b with scope := some (tx, rx ++ [v]) }
    | none => b
  | .opened _ | .closed | .rst _ | .rdy _ | .sleep _ => b

/-! ### The environment -/

/-- The environment sees an event: only the fake backend keeps anything of it. -/
def Env.observe (c : Cfg) (env : Env) (e : Event) : Env :=
  match env with
  | .tape t => .tape t
  | .fake b => .fake (backendObserve c b e)

/-- The answer to a `Sample()` after the history `h`: the backend's line is always ready (92 D29). -/
def Env.level (c : Cfg) (h : List Event) : Env → Level × Env
  | .tape t =>
    match t.rdy with
    | l :: ls => (l, .tape { t with rdy := ls })
    | [] => (Config.freeLevel h, .tape t)
  | .fake b => (c.readyLevel, .fake b)

/-- The answer to an `RX()` after the history `h`; where the backend gives none it is a free value (log 3). -/
def Env.byte (c : Cfg) (h : List Event) : Env → Byte × Env
  | .tape t =>
    match t.rx with
    | v :: vs => (v, .tape { t with rx := vs })
    | [] => (Config.freeByte h, .tape t)
  | .fake b =>
    match b.scope with
    | some (_, rx) => ((backendByte c b rx.length).getD (Config.freeByte h), .fake b)
    | none => (Config.freeByte h, .fake b)

/-- The answer to an `OpenTransport()` after the history `h`: the backend grants it (92 D29). -/
def Env.opens (h : List Event) : Env → Bool × Env
  | .tape t =>
    match t.opens with
    | ok :: oks => (ok, .tape { t with opens := oks })
    | [] => (Config.freeOpen h, .tape t)
  | .fake b => (true, .fake b)

end Sys2Proof.Machine
end

