-- ==== Sys2Proof/Machine/Expand.lean ====
section
/-!
DEFINITION. The expansion of every operation into primitives: 30_encoding R102, with the pseudocode of the rules of
files 40 to 45. An expansion is a fixed list for a given configuration, as 10_state R27 says; the two wait loops are
the primitives `gate` and `dpyTest`.
-/

namespace Sys2Proof.Machine

open Sys2Proof

/-! ### Framing layer (40) -/

/-- `SEND_CMD code` (40 R122): frame `FC`. -/
def sendCmdSeq (code : Word) : List Prim :=
  [.gate, .cs true, .tx Config.preCmd, .gate, .tx code, .cs false]

/-- The payload words of a write frame, a gate before each (40 R124). -/
def payloadSeq : List Word → List Prim
  | [] => []
  | w :: ws => .gate :: .tx w :: payloadSeq ws

/-- `SEND_BUF words` (40 R124): frame `FWN`, one chip-select scope. -/
def sendBufSeq (ws : List Word) : List Prim :=
  [.gate, .cs true, .tx Config.preWr] ++ payloadSeq ws ++ [.cs false]

/-- `SEND_DATA value` (40 R123): frame `FW1`. -/
def sendDataSeq (value : Word) : List Prim :=
  [.gate, .cs true, .tx Config.preWr, .gate, .tx value, .cs false]

/-- The received data words of a read frame, a gate before each (40 R126). -/
def receiveSeq : Nat → List Prim
  | 0 => []
  | n + 1 => .gate :: .rxWord :: receiveSeq n

/-- `READ_BUF n` (40 R126): frame `FRN`, one dummy word. -/
def readBufSeq (n : Nat) : List Prim :=
  [.gate, .cs true, .tx Config.preRd, .gate, .rxDummy] ++ receiveSeq n ++ [.cs false]

/-- `READ_DATA` (40 R125): frame `FR1`. -/
def readDataSeq : List Prim :=
  [.gate, .cs true, .tx Config.preRd, .gate, .rxDummy, .gate, .rxWord, .cs false]

/-- `SEND_CMD_ARGS code, words` (40 R127): two frames. -/
def sendCmdArgsSeq (code : Word) (ws : List Word) : List Prim := sendCmdSeq code ++ sendBufSeq ws

/-! ### Register access (41) -/

/-- `READ_REG addr` (41 R140). -/
def readRegSeq (c : Cfg) (addr : Word) : List Prim := sendCmdSeq c.cmdRegRd ++ sendDataSeq addr ++ readDataSeq

/-- `WRITE_REG addr, value` (41 R141). -/
def writeRegSeq (c : Cfg) (addr value : Word) : List Prim :=
  sendCmdSeq c.cmdRegWr ++ sendDataSeq addr ++ sendDataSeq value

/-- `WRITE_REG addr, v | BIT_1BPP` or `v & ~BIT_1BPP`, v the word read last (43 R168). -/
def writeMaskedSeq (c : Cfg) (addr : Word) (on : Bool) : List Prim :=
  sendCmdSeq c.cmdRegWr ++ sendDataSeq addr ++
    [.gate, .cs true, .tx Config.preWr, .gate, .txMasked on, .cs false]

/-- `READ_REG32 addr` (41 R142): low word first. -/
def readReg32Seq (c : Cfg) (addr : Word) : List Prim := readRegSeq c addr ++ readRegSeq c (pairHigh addr)

/-- `WRITE_REG32 addr, value` (41 R143): low word first. -/
def writeReg32Seq (c : Cfg) (addr : Word) (value : DWord) : List Prim :=
  writeRegSeq c addr (lo16 value) ++ writeRegSeq c (pairHigh addr) (hi16 value)

/-! ### Image transfer (42) -/

/-- `SET_TMA T` (42 R151): both registers written, then both read back, in `TMA_ORDER`. -/
def setTmaSeq (c : Cfg) (target : DWord) : List Prim :=
  match c.tmaOrder with
  | .lowFirst =>
    writeRegSeq c c.regLisar (lo16 target) ++ writeRegSeq c (pairHigh c.regLisar) (hi16 target) ++
      readRegSeq c c.regLisar ++ readRegSeq c (pairHigh c.regLisar) ++ [.tmaCheck target]
  | .highFirst =>
    writeRegSeq c (pairHigh c.regLisar) (hi16 target) ++ writeRegSeq c c.regLisar (lo16 target) ++
      readRegSeq c (pairHigh c.regLisar) ++ readRegSeq c c.regLisar ++ [.tmaCheck target]

/-- `LD_IMG_START info` (42 R152). -/
def ldImgStartSeq (c : Cfg) (info : LoadImageInfo) : List Prim := sendCmdSeq c.cmdLdImg ++ sendDataSeq (hdr info)

/-- `LD_IMG_AREA_START info, area` (42 R153). -/
def ldImgAreaStartSeq (c : Cfg) (info : LoadImageInfo) (area : AreaImageInfo) : List Prim :=
  sendCmdArgsSeq c.cmdLdImgArea (loadAreaArgs info area)

/-- `LD_IMG_END` (42 R154). -/
def ldImgEndSeq (c : Cfg) : List Prim := sendCmdSeq c.cmdLdImgEnd

/-- `HOST_AREA_WRITE info, area, bpp, packed` (42 R155); `bpp` and `packed` do not change the sequence. -/
def hostAreaWriteSeq (c : Cfg) (info : LoadImageInfo) (area : AreaImageInfo) : List Prim :=
  setTmaSeq c info.target ++ ldImgAreaStartSeq c info area ++ sendBufSeq info.src ++ ldImgEndSeq c

/-! ### Display controller (43) -/

/-- `WAIT_DPY_READY` (43 R165): one poll and its test. -/
def waitDpySeq (c : Cfg) (defer : Bool) : List Prim := readRegSeq c c.regDpyStatus ++ [.dpyTest defer]

/-- `DPY_AREA x, y, w, h, mode` (43 R166), or with an address `DPY_AREA_BUF` (43 R167). -/
def displaySeq (c : Cfg) (x y w h mode : Word) : Option DWord → List Prim
  | none => sendCmdArgsSeq c.cmdDpyArea (dpyArgs x y w h mode)
  | some addr => sendCmdArgsSeq c.cmdDpyBufArea (dpyBufArgs x y w h mode addr)

/-- The end of `DPY_1BPP` after its wait: a fresh read, the mode-select bit cleared, and only then a timeout kept back
by the wait (43 R168). -/
def clear1bppSeq (c : Cfg) : List Prim :=
  readRegSeq c c.reg1bppCtrl ++ writeMaskedSeq c c.reg1bppCtrl false ++ [.raiseLate]

/-- `DPY_1BPP x, y, w, h, mode, addr, bg, fg` (43 R168). -/
def dpy1bppSeq (c : Cfg) (x y w h mode : Word) (addr : Option DWord) (bg fg : Byte) : List Prim :=
  readRegSeq c c.reg1bppCtrl ++ writeMaskedSeq c c.reg1bppCtrl true ++ writeRegSeq c c.regBgvr (bgvr c bg fg) ++
    displaySeq c x y w h mode addr ++ waitDpySeq c true ++ clear1bppSeq c

/-- `ENHANCE_DRV` (43 R169). -/
def enhanceDrvSeq (c : Cfg) : List Prim :=
  readRegSeq c c.regEdc ++ writeRegSeq c c.regEdc Config.edcValue ++
    (if c.edcReadback then readRegSeq c c.regEdc else [])

/-! ### Refresh family (44) -/

/-- The skeleton of 44 R180 for bit depths 2, 4 and 8. -/
def refreshSeq (c : Cfg) (pixfmt : BitVec 4) (src : List Word) (x y w h : Word) (target : DWord) (hold : Bool) :
    List Prim :=
  waitDpySeq c false ++
    hostAreaWriteSeq c (refreshInfo c pixfmt src target) { x := x, y := y, w := w, h := h } ++
    displaySeq c x y w h c.modeGc16 (heldAddr hold target)

/-- `REFRESH_1BPP` (44 R181). -/
def refresh1bppSeq (c : Cfg) (src : List Word) (x y w h mode : Word) (target : DWord) (hold : Bool) : List Prim :=
  waitDpySeq c false ++
    hostAreaWriteSeq c (refreshInfo c c.pixfmt1bppCarrier src target) (area1bpp c x y w h) ++
    dpy1bppSeq c x y w h mode (heldAddr hold target) c.bg1bpp c.fg1bpp

/-- `MULTI_FRAME_1BPP` (44 R185) with the fast mode `a2`. -/
def multiFrameSeq (c : Cfg) (a2 : Word) (x y w h : Word) (target : DWord) (hold : Bool) : List Prim :=
  waitDpySeq c false ++ dpy1bppSeq c x y w h a2 (heldAddr hold target) c.bg1bpp c.fg1bpp

/-- `CLEAR_REFRESH` (44 R186) on a panel of `width` by `height`. -/
def clearRefreshSeq (c : Cfg) (width height : Word) (target : DWord) : List Prim :=
  waitDpySeq c false ++
    hostAreaWriteSeq c (refreshInfo c c.pixfmt.bpp4 (clearBuf width height) target)
      { x := 0, y := 0, w := width, h := height } ++
    displaySeq c 0 0 width height c.modeGc16 none

/-! ### Lifecycle (45) -/

/-- `RESET` (45 R195). -/
def resetSeq : List Prim :=
  [.rst .high, .sleep Config.tRstLong, .rst .low, .sleep Config.tRstShort, .rst .high, .sleep Config.tRstLong]

/-- `GET_SYS_INFO` (45 R199). -/
def getSysInfoSeq (c : Cfg) : List Prim := sendCmdSeq c.cmdGetDevInfo ++ readBufSeq Config.sysinfoWords

/-- `READ_VCOM` (45 R203). -/
def readVcomSeq (c : Cfg) : List Prim := sendCmdSeq c.cmdVcom ++ sendDataSeq Config.vcomSubGet ++ readDataSeq

/-- `WRITE_VCOM value` (45 R204). -/
def writeVcomSeq (c : Cfg) (value : Word) : List Prim :=
  sendCmdSeq c.cmdVcom ++ sendDataSeq Config.vcomSubSet ++ sendDataSeq value

/-- "waits ready" of `INITIALIZE` (45 R205(c)). -/
def initWaitSeq (c : Cfg) : List Prim :=
  match c.initWaitKind with
  | .gate => [.gate]
  | .displayReady => waitDpySeq c false

/-- `INITIALIZE vcom_target` (45 R205). -/
def initializeSeq (c : Cfg) (vcomTarget : Word) : List Prim :=
  [.claim] ++ resetSeq ++ sendCmdSeq c.cmdSysRun ++ getSysInfoSeq c ++ [.storeInfo] ++
    writeRegSeq c c.regPackedCtrl c.valPackedEnable ++ initWaitSeq c ++ readVcomSeq c ++
    [.endIfVcom vcomTarget] ++ writeVcomSeq c vcomTarget

/-- `SHUTDOWN` (45 R206). -/
def shutdownSeq : List Prim := [.release]

end Sys2Proof.Machine
end

