-- ==== Sys2Proof/Machine/Flags.lean ====
section
/-!
DEFINITION. The one status flag of the block, `S.TMA_MISMATCH` (10_state R26), and the tests of the two wait loops.
-/

namespace Sys2Proof.Machine

open Sys2Proof

/-- The target address read back, from the two words received in `TMA_ORDER` (42 R151). -/
def readBackOf (o : TmaOrder) (first second : Word) : DWord :=
  match o with
  | .lowFirst => join32 second first
  | .highFirst => join32 first second

/-- The read-back differs from the address written (42 R151). -/
def tmaDiffers (target readBack : DWord) : Bool := readBack != target

/-- The update engine is busy: any non-zero status word (43 R165, R170). -/
def statusBusy (status : Word) : Bool := status != 0

/-- The ready line says ready (00_scope R9, 10_state R33). -/
def lineReady (c : Cfg) (l : Level) : Bool := l == c.readyLevel

/-- `POLL_BOUND = some(B) and k >= B` (40 R120, 43 R165). -/
def boundHit (c : Cfg) (k : Nat) : Bool :=
  match c.pollBound with
  | some b => decide ((b : Nat) ≤ k)
  | none => false

/-- The flag is sticky (10_state R26). -/
def State.noteMismatch (s : State) (differs : Bool) : State := { s with tmaMismatch := s.tmaMismatch || differs }

end Sys2Proof.Machine
end

