-- ==== Sys2Proof/Machine/Ops.lean ====
section
/-!
DEFINITION. The named operations every meaning goes through: events, bus primitives, the wait loops, raising a fault,
refusing a request, running a sequence, accepting a request and going on with one.
-/

namespace Sys2Proof.Machine

open Sys2Proof

/-! ### Events and bus primitives (00_scope R13) -/

/-- One event happens: it is appended to `S.T`, and the environment sees it. -/
def State.emit (s : State) (e : Event) : State :=
  { s with trace := s.trace ++ [e], env := s.env.observe s.cfg e }

/-- `CS(1)`, `CS(0)`; `S.CS` follows. -/
def State.setCs (s : State) (on : Bool) : State :=
  { s.emit (.cs on) with cs := if on then .asserted else .deasserted }

/-- `RST(l)`; `S.RST` follows. -/
def State.setRst (s : State) (l : Level) : State := { s.emit (.rst l) with rst := .driven l }

/-- `TX16(w)`: two bytes, more significant first (40 R121). -/
def State.txWord (s : State) (w : Word) : State := (s.emit (.tx (hiByte w))).emit (.tx (loByte w))

/-- `RX()`. -/
def State.rxByte (s : State) : Byte × State :=
  let a := s.env.byte s.cfg s.trace
  (a.1, { s with env := a.2 }.emit (.rx a.1))

/-- `RX16()`: two bytes, more significant first (40 R121). -/
def State.rxWord (s : State) : Word × State :=
  let b1 := s.rxByte
  let b0 := b1.2.rxByte
  (ofBytes b1.1 b0.1, b0.2)

/-- `Sample()`. -/
def State.sample (s : State) : Level × State :=
  let a := s.env.level s.cfg s.trace
  (a.1, { s with env := a.2 }.emit (.rdy a.1))

/-- `OpenTransport()`. -/
def State.askOpen (s : State) : Bool × State :=
  let a := s.env.opens s.trace
  (a.1, { s with env := a.2 }.emit (.opened a.1))

/-- The back-off sleep of a failed poll, if `POLL_SLEEP` is set (40 R120, 43 R165). -/
def State.backOff (s : State) : State :=
  match s.cfg.pollSleep with
  | some d => s.emit (.sleep d)
  | none => s

/-! ### Reads of the session registers by the host (00_scope R12, 10_state R22, R23, R38) -/

/-- `x[i]`: `S.DI[i]` for i in 0..19 and `S.A2` for i = 20; refused while unwritten. -/
def State.sessionReg (s : State) (i : Fin 21) : Response :=
  if h : (i : Nat) < 20 then
    match s.di with
    | some di => .ok (.word di[(i : Nat)])
    | none => .refused .unwrittenRegister
  else
    match s.a2 with
    | some v => .ok (.word v)
    | none => .refused .unwrittenRegister

/-- `TargetAddress(S)`; refused while `S.DI` is unwritten. -/
def State.targetAddress (s : State) : Response :=
  match s.di with
  | some di => .ok (.dword (targetAddressOf di))
  | none => .refused .unwrittenRegister

/-! ### How a request ends (00_scope R14) -/

/-- The result of an operation that ends ok, from the words it received. -/
def Ret.value (r : Ret) (got : List Word) : Value :=
  match r with
  | .nothing => .nothing
  | .word => .word (got.headD 0)
  | .dword => .dword (join32 (got.getD 1 0) (got.headD 0))
  | .words => .words got
  | .info => .words (got.take Config.sysinfoWords)

/-- The operation ends ok: the result goes to the host and the sequencer is idle (10_state R27). -/
def finish (j : Job) (s : State) : State := { s with seq := .idle, resp := some (.ok (j.ret.value j.got)) }

/-- `CloseTransport(); S.OPEN <- false`, the last line of 45 R205 (log 10). -/
def State.closeAfterFault (s : State) : State := { s.emit .closed with isOpen := false }

/-- Taking a fault (60 R229): nothing is saved, the fault is the result, the sequencer is idle. A fault in
`INITIALIZE` after the open also closes the transport. -/
def raiseFault (f : Fault) (j : Job) (s : State) : State :=
  let s := if j.closeOnFault && s.isOpen then s.closeAfterFault else s
  { s with seq := .idle, resp := some (.fault f) }

/-- A refused request appends no event and changes no field of `S` (60 R226). -/
def State.refuse (s : State) (r : Refusal) : State := { s with resp := some (.refused r) }

/-! ### Performing one primitive -/

/-- The word received last. -/
def Job.last (j : Job) : Word := j.got.getLastD 0

/-- One poll of the gate (40 R120): a ready sample goes on; a failed one raises the timeout if the bound is hit,
chip-select deasserted first, and waits otherwise. -/
def pollGate (j : Job) (s : State) : Flow :=
  let a := s.sample
  if lineReady s.cfg a.1 then .go { j with gatePolls := 0 } a.2
  else if boundHit s.cfg (j.gatePolls + 1) then
    .raise (.waitTimeout .gate) j (if a.2.cs = .asserted then a.2.setCs false else a.2)
  else .hold [.gate] { j with gatePolls := j.gatePolls + 1 } a.2.backOff

/-- The test of the display wait on the status word read last (43 R165): zero goes on; otherwise the timeout, kept
until the 1bpp bit is cleared if `defer` (43 R168), or another poll. -/
def pollDisplay (defer : Bool) (j : Job) (s : State) : Flow :=
  let j' := { j with got := j.got.dropLast }
  if statusBusy j.last then
    if boundHit s.cfg (j.dpyPolls + 1) then
      if defer then .go { j' with dpyPolls := 0, late := true } s
      else .raise (.waitTimeout .display) j' s
    else .hold (waitDpySeq s.cfg defer) { j' with dpyPolls := j.dpyPolls + 1 } s.backOff
  else .go { j' with dpyPolls := 0 } s

/-- The comparison that ends `SET_TMA` (42 R151). -/
def checkTma (target : DWord) (j : Job) (s : State) : Flow :=
  let n := j.got.length
  let readBack := readBackOf s.cfg.tmaOrder (j.got.getD (n - 2) 0) (j.got.getD (n - 1) 0)
  let differs := tmaDiffers target readBack
  let s' := s.noteMismatch differs
  if differs && s.cfg.tmaMismatchFault then .raise (.tmaMismatch target readBack) j s' else .go j s'

/-- `OpenTransport()` in `INITIALIZE` (45 R205): the block holds the pins, chip-select deasserted and the reset pin
undriven until the first `RST` event (10_state R25), or the fault of 60 R222. -/
def claimTransport (j : Job) (s : State) : Flow :=
  let a := s.askOpen
  if a.1 then .go j { a.2 with isOpen := true, cs := .deasserted, rst := .undriven } else .raise .transportOpenFailed j a.2

/-- `CloseTransport()` in `SHUTDOWN` (45 R206). -/
def State.releaseTransport (s : State) : State :=
  { s.emit .closed with isOpen := false, cs := .undriven, rst := .undriven }

/-- `S.DI <- di; S.A2 <- A2(di)` (45 R205, R202). -/
def storeDeviceInfo (j : Job) (s : State) : State :=
  match infoOf j.got with
  | some di => { s with di := some di, a2 := some (fastMode s.cfg di) }
  | none => s

/-- Perform one primitive. -/
def perform (p : Prim) (j : Job) (s : State) : Flow :=
  match p with
  | .gate => pollGate j s
  | .cs on => .go j (s.setCs on)
  | .tx w => .go j (s.txWord w)
  | .txMasked on => .go j (s.txWord (with1bpp s.cfg on j.last))
  | .rxDummy => .go j s.rxWord.2
  | .rxWord => .go { j with got := j.got ++ [s.rxWord.1] } s.rxWord.2
  | .dpyTest defer => pollDisplay defer j s
  | .raiseLate => if j.late then .raise (.waitTimeout .display) j s else .go j s
  | .tmaCheck target => checkTma target j s
  | .rst l => .go j (s.setRst l)
  | .sleep d => .go j (s.emit (.sleep d))
  | .claim => claimTransport j s
  | .release => .go j s.releaseTransport
  | .storeInfo => .go j (storeDeviceInfo j s)
  | .endIfVcom v => if j.last = v then .done j s else .go j s

/-! ### Running a sequence -/

/-- Run primitives until the operation ends or a poll fails; a failed poll leaves the operation in `S.SEQ`
(10_state R27; log 4). -/
def runPrims : List Prim → Job → State → State
  | [], j, s => finish j s
  | p :: ps, j, s =>
    match perform p j s with
    | .go j' s' => runPrims ps j' s'
    | .hold again j' s' => { s' with seq := .running { j' with todo := again ++ ps } }
    | .done j' s' => finish j' s'
    | .raise f j' s' => raiseFault f j' s'

/-- A job at its first primitive. -/
def Job.start (op : Instr) (ret : Ret) (body : List Prim) : Job :=
  { op := op, todo := body, ret := ret, got := [], gatePolls := 0, dpyPolls := 0, late := false, closeOnFault := false }

/-! ### Accepting a request -/

/-- The first refusal that holds, in the order given (60 R228). -/
def firstRefusal : List (Option Refusal) → Option Refusal
  | [] => none
  | some r :: _ => some r
  | none :: rest => firstRefusal rest

/-- `Busy`: the sequencer is not idle (60 R226). -/
def State.busyCheck (s : State) : Option Refusal :=
  match s.seq with
  | .idle => none
  | .running _ => some .busy

/-- `NotOpen` (60 R226). -/
def State.openCheck (s : State) : Option Refusal := if s.isOpen then none else some .notOpen

/-- `AlreadyOpen` (60 R226). -/
def State.closedCheck (s : State) : Option Refusal := if s.isOpen then some .alreadyOpen else none

/-- `EmptyBuffer`: `n` words or none (60 R226). -/
def emptyCheck (n : Nat) : Option Refusal := if n = 0 then some .emptyBuffer else none

/-- Accept a request: test the refusals in order before the first event (60 R226, R228), `Busy` first, then run the
job from its first primitive. -/
def State.request (s : State) (refusals : List (Option Refusal)) (j : Job) : Host.Outcome State Fault Refusal :=
  match firstRefusal (s.busyCheck :: refusals) with
  | some r => .next (s.refuse r)
  | none => .next (runPrims j.todo j { s with resp := none })

/-- A request of an open session (10_state R21). -/
def State.openRequest (s : State) (refusals : List (Option Refusal)) (j : Job) : Host.Outcome State Fault Refusal :=
  s.request (s.openCheck :: refusals) j

/-- A request that touches no primitive and answers at once (42 R150). -/
def State.answer (s : State) (v : Value) : Host.Outcome State Fault Refusal :=
  match s.busyCheck with
  | some r => .next (s.refuse r)
  | none => .next { s with resp := some (.ok v) }

/-- Go on with the operation in progress. -/
def resumeJob (j : Job) (s : State) : State := runPrims j.todo j { s with seq := .idle }

end Sys2Proof.Machine
end

