-- ==== Sys2Proof/Machine/Display.lean ====
section
/-!
DEFINITION. The display controller operations (43_display R165 to R169).
-/

namespace Sys2Proof.Machine

open Sys2Proof

/-- `WAIT_DPY_READY` (43 R165). -/
def execWaitDpyReady (s : State) : Host.Outcome State Fault Refusal :=
  s.openRequest [] (Job.start .waitDpyReady .nothing (waitDpySeq s.cfg false))

/-- `DPY_AREA x, y, w, h, mode` (43 R166). -/
def execDpyArea (x y w h mode : Word) (s : State) : Host.Outcome State Fault Refusal :=
  s.openRequest [] (Job.start (.dpyArea x y w h mode) .nothing (displaySeq s.cfg x y w h mode none))

/-- `DPY_AREA_BUF x, y, w, h, mode, addr` (43 R167). -/
def execDpyAreaBuf (x y w h mode : Word) (addr : DWord) (s : State) : Host.Outcome State Fault Refusal :=
  s.openRequest [] (Job.start (.dpyAreaBuf x y w h mode addr) .nothing (displaySeq s.cfg x y w h mode (some addr)))

/-- `DPY_1BPP x, y, w, h, mode, addr, bg, fg` (43 R168). -/
def execDpy1bpp (x y w h mode : Word) (addr : Option DWord) (bg fg : Byte) (s : State) :
    Host.Outcome State Fault Refusal :=
  s.openRequest [] (Job.start (.dpy1bpp x y w h mode addr bg fg) .nothing (dpy1bppSeq s.cfg x y w h mode addr bg fg))

/-- `ENHANCE_DRV` (43 R169): the result is the value read before the write. -/
def execEnhanceDrv (s : State) : Host.Outcome State Fault Refusal :=
  s.openRequest [] (Job.start .enhanceDrv .word (enhanceDrvSeq s.cfg))


end Sys2Proof.Machine
end

