-- ==== Sys2Proof/Machine/Framing.lean ====
section
/-!
DEFINITION. The framing layer operations (40_framing R120 to R127).
-/

namespace Sys2Proof.Machine

open Sys2Proof

/-- `GATE` (40 R120). -/
def execGate (s : State) : Host.Outcome State Fault Refusal :=
  s.openRequest [] (Job.start .gate .nothing [.gate])

/-- `SEND_CMD code` (40 R122). -/
def execSendCmd (code : Word) (s : State) : Host.Outcome State Fault Refusal :=
  s.openRequest [] (Job.start (.sendCmd code) .nothing (sendCmdSeq code))

/-- `SEND_DATA value` (40 R123). -/
def execSendData (value : Word) (s : State) : Host.Outcome State Fault Refusal :=
  s.openRequest [] (Job.start (.sendData value) .nothing (sendDataSeq value))

/-- `SEND_BUF words` (40 R124). -/
def execSendBuf (words : List Word) (s : State) : Host.Outcome State Fault Refusal :=
  s.openRequest [emptyCheck words.length] (Job.start (.sendBuf words) .nothing (sendBufSeq words))

/-- `READ_DATA` (40 R125). -/
def execReadData (s : State) : Host.Outcome State Fault Refusal :=
  s.openRequest [] (Job.start .readData .word readDataSeq)

/-- `READ_BUF n` (40 R126). -/
def execReadBuf (n : Nat) (s : State) : Host.Outcome State Fault Refusal :=
  s.openRequest [emptyCheck n] (Job.start (.readBuf n) .words (readBufSeq n))

/-- `SEND_CMD_ARGS code, words` (40 R127): the empty buffer is refused before the command frame (90 C10). -/
def execSendCmdArgs (code : Word) (words : List Word) (s : State) : Host.Outcome State Fault Refusal :=
  s.openRequest [emptyCheck words.length] (Job.start (.sendCmdArgs code words) .nothing (sendCmdArgsSeq code words))


end Sys2Proof.Machine
end

