-- ==== Sys2Proof/Machine/ImageTransfer.lean ====
section
/-!
DEFINITION. The image transfer operations (42_image_transfer R150 to R155).
-/

namespace Sys2Proof.Machine

open Sys2Proof

/-- `WIDTH_WORDS W, B` (42 R150): a pure function, allowed while the session is closed. -/
def execWidthWords (width : Word) (bpp : Nat) (s : State) : Host.Outcome State Fault Refusal :=
  s.answer (.nat (wordsPerRow width bpp))

/-- `SET_TMA T` (42 R151). -/
def execSetTma (target : DWord) (s : State) : Host.Outcome State Fault Refusal :=
  s.openRequest [] (Job.start (.setTma target) .nothing (setTmaSeq s.cfg target))

/-- `LD_IMG_START info` (42 R152). -/
def execLdImgStart (info : LoadImageInfo) (s : State) : Host.Outcome State Fault Refusal :=
  s.openRequest [] (Job.start (.ldImgStart info) .nothing (ldImgStartSeq s.cfg info))

/-- `LD_IMG_AREA_START info, area` (42 R153). -/
def execLdImgAreaStart (info : LoadImageInfo) (area : AreaImageInfo) (s : State) : Host.Outcome State Fault Refusal :=
  s.openRequest [] (Job.start (.ldImgAreaStart info area) .nothing (ldImgAreaStartSeq s.cfg info area))

/-- `LD_IMG_END` (42 R154). -/
def execLdImgEnd (s : State) : Host.Outcome State Fault Refusal :=
  s.openRequest [] (Job.start .ldImgEnd .nothing (ldImgEndSeq s.cfg))

/-- `HOST_AREA_WRITE info, area, bpp, packed` (42 R155): the packed path for every `bpp` and `packed`. -/
def execHostAreaWrite (info : LoadImageInfo) (area : AreaImageInfo) (bpp : Nat) (packed : Bool) (s : State) :
    Host.Outcome State Fault Refusal :=
  s.openRequest [emptyCheck info.src.length]
    (Job.start (.hostAreaWrite info area bpp packed) .nothing
      (hostAreaWriteSeq s.cfg info area))


end Sys2Proof.Machine
end

