-- ==== Sys2Proof/Machine/Lifecycle.lean ====
section
/-!
DEFINITION. The device lifecycle (45_lifecycle R195 to R206).
-/

namespace Sys2Proof.Machine

open Sys2Proof

/-- `RESET` (45 R195): six pin and sleep events, no gate. -/
def execReset (s : State) : Host.Outcome State Fault Refusal :=
  s.openRequest [] (Job.start .reset .nothing resetSeq)

/-- `SYS_RUN` (45 R196). -/
def execSysRun (s : State) : Host.Outcome State Fault Refusal :=
  s.openRequest [] (Job.start .sysRun .nothing (sendCmdSeq s.cfg.cmdSysRun))

/-- `STANDBY` (45 R197). -/
def execStandby (s : State) : Host.Outcome State Fault Refusal :=
  s.openRequest [] (Job.start .standby .nothing (sendCmdSeq s.cfg.cmdStandby))

/-- `SLEEP` (45 R198). -/
def execSleep (s : State) : Host.Outcome State Fault Refusal :=
  s.openRequest [] (Job.start .sleep .nothing (sendCmdSeq s.cfg.cmdSleep))

/-- `GET_SYS_INFO` (45 R199): as a host request it does not write `S.DI` (90 C8). -/
def execGetSysInfo (s : State) : Host.Outcome State Fault Refusal :=
  s.openRequest [] (Job.start .getSysInfo .words (getSysInfoSeq s.cfg))

/-- `READ_VCOM` (45 R203). -/
def execReadVcom (s : State) : Host.Outcome State Fault Refusal :=
  s.openRequest [] (Job.start .readVcom .word (readVcomSeq s.cfg))

/-- `WRITE_VCOM value` (45 R204). -/
def execWriteVcom (value : Word) (s : State) : Host.Outcome State Fault Refusal :=
  s.openRequest [] (Job.start (.writeVcom value) .nothing (writeVcomSeq s.cfg value))

/-- `INITIALIZE vcom_target` (45 R205): the only operation a closed session accepts besides `WIDTH_WORDS`; refused while
the session is open. -/
def execInitializeDevice (vcomTarget : Word) (s : State) : Host.Outcome State Fault Refusal :=
  s.request [s.closedCheck]
    { Job.start (.initializeDevice vcomTarget) .info (initializeSeq s.cfg vcomTarget) with closeOnFault := true }

/-- `SHUTDOWN` (45 R206). -/
def execShutdown (s : State) : Host.Outcome State Fault Refusal :=
  s.openRequest [] (Job.start .shutdown .nothing shutdownSeq)


end Sys2Proof.Machine
end

