-- ==== Sys2Proof/Machine/Refresh.lean ====
section
/-!
DEFINITION. The refresh family (44_refresh R180 to R186).
-/

namespace Sys2Proof.Machine

open Sys2Proof

/-- `REFRESH_1BPP src, x, y, w, h, mode, target, hold` (44 R181). -/
def execRefresh1bpp (src : List Word) (x y w h mode : Word) (target : DWord) (hold : Bool) (s : State) :
    Host.Outcome State Fault Refusal :=
  s.openRequest [emptyCheck src.length]
    (Job.start (.refresh1bpp src x y w h mode target hold) .nothing
      (refresh1bppSeq s.cfg src x y w h mode target hold))

/-- `REFRESH_2BPP src, x, y, w, h, target, hold` (44 R180, R182). -/
def execRefresh2bpp (src : List Word) (x y w h : Word) (target : DWord) (hold : Bool) (s : State) :
    Host.Outcome State Fault Refusal :=
  s.openRequest [emptyCheck src.length]
    (Job.start (.refresh2bpp src x y w h target hold) .nothing
      (refreshSeq s.cfg s.cfg.pixfmt.bpp2 src x y w h target hold))

/-- `REFRESH_4BPP src, x, y, w, h, target, hold` (44 R180, R183). -/
def execRefresh4bpp (src : List Word) (x y w h : Word) (target : DWord) (hold : Bool) (s : State) :
    Host.Outcome State Fault Refusal :=
  s.openRequest [emptyCheck src.length]
    (Job.start (.refresh4bpp src x y w h target hold) .nothing
      (refreshSeq s.cfg s.cfg.pixfmt.bpp4 src x y w h target hold))

/-- `REFRESH_8BPP src, x, y, w, h, target, hold` (44 R180, R184). -/
def execRefresh8bpp (src : List Word) (x y w h : Word) (target : DWord) (hold : Bool) (s : State) :
    Host.Outcome State Fault Refusal :=
  s.openRequest [emptyCheck src.length]
    (Job.start (.refresh8bpp src x y w h target hold) .nothing
      (refreshSeq s.cfg s.cfg.pixfmt.bpp8 src x y w h target hold))

/-- `MULTI_FRAME_1BPP x, y, w, h, target, hold` (44 R185): no transfer; refused while `S.A2` is unwritten. -/
def execMultiFrame1bpp (x y w h : Word) (target : DWord) (hold : Bool) (s : State) :
    Host.Outcome State Fault Refusal :=
  match s.a2 with
  | some a2 =>
    s.openRequest []
      (Job.start (.multiFrame1bpp x y w h target hold) .nothing (multiFrameSeq s.cfg a2 x y w h target hold))
  | none =>
    s.openRequest [some .unwrittenRegister] (Job.start (.multiFrame1bpp x y w h target hold) .nothing [])

/-- `CLEAR_REFRESH target` (44 R186): the panel size is `S.DI[0]` by `S.DI[1]`; refused while `S.DI` is unwritten. -/
def execClearRefresh (target : DWord) (s : State) : Host.Outcome State Fault Refusal :=
  match s.di with
  | some di =>
    s.openRequest [emptyCheck (clearBuf di[0] di[1]).length]
      (Job.start (.clearRefresh target) .nothing (clearRefreshSeq s.cfg di[0] di[1] target))
  | none => s.openRequest [some .unwrittenRegister] (Job.start (.clearRefresh target) .nothing [])


end Sys2Proof.Machine
end

