-- ==== Sys2Proof/Machine/RegisterAccess.lean ====
section
/-!
DEFINITION. The register access operations (41_register_access R140 to R143).
-/

namespace Sys2Proof.Machine

open Sys2Proof

/-- `READ_REG addr` (41 R140). -/
def execReadReg (addr : Word) (s : State) : Host.Outcome State Fault Refusal :=
  s.openRequest [] (Job.start (.readReg addr) .word (readRegSeq s.cfg addr))

/-- `WRITE_REG addr, value` (41 R141). -/
def execWriteReg (addr value : Word) (s : State) : Host.Outcome State Fault Refusal :=
  s.openRequest [] (Job.start (.writeReg addr value) .nothing (writeRegSeq s.cfg addr value))

/-- `READ_REG32 addr` (41 R142). -/
def execReadReg32 (addr : Word) (s : State) : Host.Outcome State Fault Refusal :=
  s.openRequest [] (Job.start (.readReg32 addr) .dword (readReg32Seq s.cfg addr))

/-- `WRITE_REG32 addr, value` (41 R143). -/
def execWriteReg32 (addr : Word) (value : DWord) (s : State) : Host.Outcome State Fault Refusal :=
  s.openRequest [] (Job.start (.writeReg32 addr value) .nothing (writeReg32Seq s.cfg addr value))


end Sys2Proof.Machine
end

