-- ==== Sys2Proof/Machine/WireFrames.lean ====
section
/-!
DEFINITION. The wire rows of the opcode table (30_encoding R83, R86): the framing layer puts one frame of the row's format on
the wire. They are no requests of R99; the model accepts them as raw frames of an open session (log 7).
-/

namespace Sys2Proof.Machine

open Sys2Proof

/-- `FC`: the frame `SEND_CMD` emits (40 R122). -/
def execFrameFc (code : Word) (s : State) : Host.Outcome State Fault Refusal :=
  s.openRequest [] (Job.start (.frameFc code) .nothing (sendCmdSeq code))

/-- `FW1`: the frame `SEND_DATA` emits (40 R123). -/
def execFrameFw1 (data : Word) (s : State) : Host.Outcome State Fault Refusal :=
  s.openRequest [] (Job.start (.frameFw1 data) .nothing (sendDataSeq data))

/-- `FWN`: the frame `SEND_BUF` emits (40 R124). -/
def execFrameFwn (datas : List Word) (s : State) : Host.Outcome State Fault Refusal :=
  s.openRequest [emptyCheck datas.length] (Job.start (.frameFwn datas) .nothing (sendBufSeq datas))

/-- `FR1`: the frame `READ_DATA` emits (40 R125). -/
def execFrameFr1 (s : State) : Host.Outcome State Fault Refusal :=
  s.openRequest [] (Job.start .frameFr1 .word readDataSeq)

/-- `FRN`: the frame `READ_BUF` emits (40 R126). -/
def execFrameFrn (n : Nat) (s : State) : Host.Outcome State Fault Refusal :=
  s.openRequest [emptyCheck n] (Job.start (.frameFrn n) .words (readBufSeq n))

/-- The header word, sent as `CMD_LD_IMG` carries it: the data word of one `FW1` frame (30_encoding R85, R86). -/
def execWordLdHeader (endian : BitVec 1) (pixfmt rot : BitVec 4) (s : State) : Host.Outcome State Fault Refusal :=
  s.openRequest [] (Job.start (.wordLdHeader endian pixfmt rot) .nothing (sendDataSeq (headerWord endian pixfmt rot)))


end Sys2Proof.Machine
end

