-- ==== Sys2Proof/Machine/Dispatch.lean ====
section
/-!
DEFINITION. One arm per constructor of `Instr`, each one direct call of that instruction's meaning.
-/

namespace Sys2Proof.Machine

open Sys2Proof

def exec (i : Instr) (s : State) : Host.Outcome State Fault Refusal :=
  match i with
  | .gate => Sys2Proof.Machine.execGate s
  | .sendCmd code => Sys2Proof.Machine.execSendCmd code s
  | .sendData value => Sys2Proof.Machine.execSendData value s
  | .sendBuf words => Sys2Proof.Machine.execSendBuf words s
  | .readData => Sys2Proof.Machine.execReadData s
  | .readBuf n => Sys2Proof.Machine.execReadBuf n s
  | .sendCmdArgs code words => Sys2Proof.Machine.execSendCmdArgs code words s
  | .readReg addr => Sys2Proof.Machine.execReadReg addr s
  | .writeReg addr value => Sys2Proof.Machine.execWriteReg addr value s
  | .readReg32 addr => Sys2Proof.Machine.execReadReg32 addr s
  | .writeReg32 addr value => Sys2Proof.Machine.execWriteReg32 addr value s
  | .widthWords width bpp => Sys2Proof.Machine.execWidthWords width bpp s
  | .setTma target => Sys2Proof.Machine.execSetTma target s
  | .ldImgStart info => Sys2Proof.Machine.execLdImgStart info s
  | .ldImgAreaStart info area => Sys2Proof.Machine.execLdImgAreaStart info area s
  | .ldImgEnd => Sys2Proof.Machine.execLdImgEnd s
  | .hostAreaWrite info area bpp packed => Sys2Proof.Machine.execHostAreaWrite info area bpp packed s
  | .waitDpyReady => Sys2Proof.Machine.execWaitDpyReady s
  | .dpyArea x y w h mode => Sys2Proof.Machine.execDpyArea x y w h mode s
  | .dpyAreaBuf x y w h mode addr => Sys2Proof.Machine.execDpyAreaBuf x y w h mode addr s
  | .dpy1bpp x y w h mode addr bg fg => Sys2Proof.Machine.execDpy1bpp x y w h mode addr bg fg s
  | .enhanceDrv => Sys2Proof.Machine.execEnhanceDrv s
  | .refresh1bpp src x y w h mode target hold => Sys2Proof.Machine.execRefresh1bpp src x y w h mode target hold s
  | .refresh2bpp src x y w h target hold => Sys2Proof.Machine.execRefresh2bpp src x y w h target hold s
  | .refresh4bpp src x y w h target hold => Sys2Proof.Machine.execRefresh4bpp src x y w h target hold s
  | .refresh8bpp src x y w h target hold => Sys2Proof.Machine.execRefresh8bpp src x y w h target hold s
  | .multiFrame1bpp x y w h target hold => Sys2Proof.Machine.execMultiFrame1bpp x y w h target hold s
  | .clearRefresh target => Sys2Proof.Machine.execClearRefresh target s
  | .reset => Sys2Proof.Machine.execReset s
  | .sysRun => Sys2Proof.Machine.execSysRun s
  | .standby => Sys2Proof.Machine.execStandby s
  | .sleep => Sys2Proof.Machine.execSleep s
  | .getSysInfo => Sys2Proof.Machine.execGetSysInfo s
  | .readVcom => Sys2Proof.Machine.execReadVcom s
  | .writeVcom value => Sys2Proof.Machine.execWriteVcom value s
  | .initializeDevice vcomTarget => Sys2Proof.Machine.execInitializeDevice vcomTarget s
  | .shutdown => Sys2Proof.Machine.execShutdown s
  | .frameFc code => Sys2Proof.Machine.execFrameFc code s
  | .frameFw1 data => Sys2Proof.Machine.execFrameFw1 data s
  | .frameFwn datas => Sys2Proof.Machine.execFrameFwn datas s
  | .frameFr1 => Sys2Proof.Machine.execFrameFr1 s
  | .frameFrn n => Sys2Proof.Machine.execFrameFrn n s
  | .wordLdHeader endian pixfmt rot => Sys2Proof.Machine.execWordLdHeader endian pixfmt rot s

end Sys2Proof.Machine
end

