-- ==== Sys2Proof/Machine/Fetch.lean ====
section
/-!
DEFINITION. The request port (10_state R27, 30_encoding R99 to R101): what the block does next, and how a table word is
put on the port. The block fetches no instruction from any memory (20_memory R66); a request is accepted only when the
sequencer is idle.
-/

namespace Sys2Proof.Machine

open Sys2Proof

/-- What the block does next: go on with the operation in progress, or take the next item off the port. -/
def fetch (s : State) : Fetched :=
  match s.seq with
  | .running j => .resume j
  | .idle =>
    match s.port with
    | [] => .wait
    | item :: rest =>
      match decode item with
      | .ok i => .run i { s with port := rest }
      | .error .unknownOp => .unknown { s with port := rest }
      | .error why => .reject why

/-- An op number not in R99 is refused by the request port (30_encoding R100, 60 R226). -/
def refuseUnknown (s : State) : Host.Outcome State Fault Refusal := .next (s.refuse .unknownOp)

/-- `s` with `item` as the request issued next and the sequencer ready to accept it (log 6). -/
def placeNext (s : State) (item : PortItem) : State := { s with seq := .idle, port := item :: s.port }

end Sys2Proof.Machine
end

