-- ==== Sys2Proof/Machine/Step.lean ====
section
/-!
DEFINITION. One step of the block: the operation in progress is continued to its end or to its next failed poll; an
idle block takes the next request and runs it; with no request it waits (10_state R27; log 4, 6).
-/

namespace Sys2Proof.Machine

open Sys2Proof

/-- One step. -/
def step (s : State) : Host.Outcome State Fault Refusal :=
  match fetch s with
  | .resume j => .next (resumeJob j s)
  | .wait => .next s
  | .unknown s' => refuseUnknown s'
  | .reject why => .refused (.notARequest why)
  | .run i s' => exec i s'

/-- `s` with the instruction of an opcode-table word as the next one `step` runs (log 6). -/
def State.withFetchWord (s : State) (nbits w : Nat) : State := placeNext s (tableItem nbits w)

end Sys2Proof.Machine
end

