-- ==== Sys2Proof/Safety.lean ====
section
/-!
DEFINITION. The vocabulary of the claims: the events a frame and a command sequence put on the bus (30_encoding R83,
R85), an environment that answers a given script, the state an operation ends in, and the safe form of an event history
(40_framing R128, 45_lifecycle R207) with the invariant that keeps it.
-/

namespace Sys2Proof.Machine

open Sys2Proof

/-! ### Events of frames and command sequences -/

/-- A gate that is ready at its first sample. -/
def readyEvent (c : Cfg) : Event := .rdy c.readyLevel

/-- A word transmitted, more significant byte first (20_memory R54). -/
def txEvents (w : Word) : List Event := [.tx (hiByte w), .tx (loByte w)]

/-- A word received, more significant byte first (20_memory R55). -/
def rxEvents (w : Word) : List Event := [.rx (hiByte w), .rx (loByte w)]

/-- A frame that transmits the words `ws` after the preamble `pre`, every gate ready at once (30_encoding R83). -/
def outFrame (c : Cfg) (pre : Word) (ws : List Word) : List Event :=
  readyEvent c :: .cs true :: txEvents pre ++ ws.flatMap (fun w => readyEvent c :: txEvents w) ++ [.cs false]

/-- Frame `FC`. -/
def cmdFrame (c : Cfg) (code : Word) : List Event := outFrame c Config.preCmd [code]

/-- Frames `FW1` and `FWN`. -/
def dataFrame (c : Cfg) (ws : List Word) : List Event := outFrame c Config.preWr ws

/-- Frames `FR1` and `FRN`: the words received, the dummy word first. -/
def readFrame (c : Cfg) (dummy : Word) (ws : List Word) : List Event :=
  readyEvent c :: .cs true :: txEvents Config.preRd ++
    (dummy :: ws).flatMap (fun w => readyEvent c :: rxEvents w) ++ [.cs false]

/-- A command with its arguments in one write frame (30_encoding R85). -/
def argsEvents (c : Cfg) (code : Word) (ws : List Word) : List Event := cmdFrame c code ++ dataFrame c ws

/-- `READ_REG a` answered dummy `d`, value `v`. -/
def readRegEvents (c : Cfg) (a d v : Word) : List Event :=
  cmdFrame c c.cmdRegRd ++ dataFrame c [a] ++ readFrame c d [v]

/-- `WRITE_REG a, v`. -/
def writeRegEvents (c : Cfg) (a v : Word) : List Event := cmdFrame c c.cmdRegWr ++ dataFrame c [a] ++ dataFrame c [v]

/-- `SET_TMA t`: the words received are dummy and value of the first read, then of the second. -/
def setTmaEvents (c : Cfg) (t : DWord) (d1 r1 d2 r2 : Word) : List Event :=
  match c.tmaOrder with
  | .lowFirst =>
    writeRegEvents c c.regLisar (lo16 t) ++ writeRegEvents c (c.regLisar + 2) (hi16 t) ++
      readRegEvents c c.regLisar d1 r1 ++ readRegEvents c (c.regLisar + 2) d2 r2
  | .highFirst =>
    writeRegEvents c (c.regLisar + 2) (hi16 t) ++ writeRegEvents c c.regLisar (lo16 t) ++
      readRegEvents c (c.regLisar + 2) d1 r1 ++ readRegEvents c c.regLisar d2 r2

/-- The address the two words read back stand for: the low word comes first under `LOW_FIRST`. -/
def readBackAddr (c : Cfg) (r1 r2 : Word) : DWord :=
  match c.tmaOrder with
  | .lowFirst => join32 r2 r1
  | .highFirst => join32 r1 r2

/-- `HOST_AREA_WRITE`: target, load start, pixel words, load end. -/
def loadEvents (c : Cfg) (info : LoadImageInfo) (a : AreaImageInfo) (d1 r1 d2 r2 : Word) : List Event :=
  setTmaEvents c info.target d1 r1 d2 r2 ++ argsEvents c c.cmdLdImgArea [hdr info, a.x, a.y, a.w, a.h] ++
    dataFrame c info.src ++ cmdFrame c c.cmdLdImgEnd

/-- `DPY_AREA`, or `DPY_AREA_BUF` where an address is given. -/
def displayEvents (c : Cfg) (x y w h mode : Word) : Option DWord → List Event
  | none => argsEvents c c.cmdDpyArea [x, y, w, h, mode]
  | some t => argsEvents c c.cmdDpyBufArea [x, y, w, h, mode, lo16 t, hi16 t]

/-- The gates of a display command (95 V14a, V14b). -/
def displayGates : Option DWord → Nat
  | none => 8
  | some _ => 10

/-- `DPY_1BPP` with one status poll: the control register reads `v`, the status `st`, the control register `v2`; `d1`,
`d2`, `d3` are the dummy words. -/
def mono1bppEvents (c : Cfg) (x y w h mode : Word) (addr : Option DWord) (bg fg : Byte) (d1 v d2 st d3 v2 : Word) :
    List Event :=
  readRegEvents c c.reg1bppCtrl d1 v ++ writeRegEvents c c.reg1bppCtrl (v ||| mask1bpp c) ++
    writeRegEvents c c.regBgvr (bgvr c bg fg) ++ displayEvents c x y w h mode addr ++
    readRegEvents c c.regDpyStatus d2 st ++ readRegEvents c c.reg1bppCtrl d3 v2 ++
    writeRegEvents c c.reg1bppCtrl (v2 &&& ~~~(mask1bpp c))

/-- `RESET` (45 R195). -/
def resetEvents : List Event :=
  [.rst .high, .sleep 200000, .rst .low, .sleep 10000, .rst .high, .sleep 200000]

/-- `READ_VCOM` answered dummy `d`, value `v`. -/
def readVcomEvents (c : Cfg) (d v : Word) : List Event := cmdFrame c c.cmdVcom ++ dataFrame c [0] ++ readFrame c d [v]

/-- `WRITE_VCOM v`. -/
def writeVcomEvents (c : Cfg) (v : Word) : List Event := cmdFrame c c.cmdVcom ++ dataFrame c [1] ++ dataFrame c [v]

/-- "waits ready" of `INITIALIZE` (45 R205(c)); `d` is the dummy word of the status read. -/
def initWaitEvents (c : Cfg) (d : Word) : List Event :=
  match c.initWaitKind with
  | .gate => [readyEvent c]
  | .displayReady => readRegEvents c c.regDpyStatus d 0

/-- The gates of that wait. -/
def initWaitGates (c : Cfg) : Nat :=
  match c.initWaitKind with
  | .gate => 1
  | .displayReady => 7

/-- The words received in that wait. -/
def initWaitWords (c : Cfg) (d : Word) : List Word :=
  match c.initWaitKind with
  | .gate => []
  | .displayReady => [d, 0]

/-- `INITIALIZE` after its open (45 R205): the device-info words `di` come after the dummy `d1`, the status read has
the dummy `d2`, and the VCOM read gives `cur` after the dummy `d3`. -/
def initEvents (c : Cfg) (target : Word) (d1 : Word) (di : List Word) (d2 d3 cur : Word) : List Event :=
  resetEvents ++ cmdFrame c c.cmdSysRun ++ (cmdFrame c c.cmdGetDevInfo ++ readFrame c d1 di) ++
    writeRegEvents c c.regPackedCtrl c.valPackedEnable ++ initWaitEvents c d2 ++ readVcomEvents c d3 cur ++
    (if cur = target then [] else writeVcomEvents c target)

/-- One failed poll of the gate that samples `l` (40 R120). -/
def failedPoll (c : Cfg) (l : Level) : List Event := .rdy l :: (c.pollSleep.map Event.sleep).toList

/-- One failed poll of the display wait that reads dummy `d` and status `v` (43 R165). -/
def busyPoll (c : Cfg) (d v : Word) : List Event :=
  readRegEvents c c.regDpyStatus d v ++ (c.pollSleep.map Event.sleep).toList

/-! ### Scripted environments and the states operations end in -/

/-- The bytes of received words, in wire order. -/
def wireBytes (ws : List Word) : List Byte := ws.flatMap wordBytes

/-- The environment answers ready to the next `n` samples and receives the words `ws`; afterwards it answers as `e`. -/
def Env.script (c : Cfg) (n : Nat) (ws : List Word) (e : Tape) : Env :=
  .tape { rdy := List.replicate n c.readyLevel ++ e.rdy, rx := wireBytes ws ++ e.rx, opens := e.opens }

/-- A session open and idle: the block accepts a request. -/
structure State.Accepts (s : State) : Prop where
  idle : s.seq = .idle
  session : s.isOpen = true

/-- The state after an operation that put the events `evs` on the bus, left the environment at `e`, and answered `v`:
chip-select is deasserted, the sequencer idle, and everything else as in `s`. -/
def State.ended (s : State) (e : Tape) (evs : List Event) (v : Value) : State :=
  { s with cs := .deasserted, trace := s.trace ++ evs, env := .tape e, resp := some (.ok v) }

/-- The state an operation of job `j` ends in when a fault `f` ends it after the events `evs`, with chip-select left at
`cs`: the sequencer is idle, the fault is the result, and a fault of `INITIALIZE` closes the transport (60 R229, 45
R205). -/
def State.faulted (s : State) (j : Job) (e : Tape) (cs : CsLatch) (evs : List Event) (f : Fault) : State :=
  let closes := j.closeOnFault && s.isOpen
  { s with
    isOpen := s.isOpen && !closes
    cs := cs
    seq := .idle
    trace := s.trace ++ evs ++ (if closes then [.closed] else [])
    env := .tape e
    resp := some (.fault f) }

/-- The state a flow carries. -/
def Flow.state : Flow → State
  | .go _ s => s
  | .hold _ _ s => s
  | .done _ s => s
  | .raise _ _ s => s

/-- `n` steps lead from `s` to `t`, each going on with an operation in progress. -/
def goesOnTo : Nat → State → State → Prop
  | 0, s, t => t = s
  | n + 1, s, t => s.seq ≠ .idle ∧ ∃ u, step s = .next u ∧ goesOnTo n u t

/-- Executed in `s`, the instruction `i` ends in `t` with the response `r`, after as many waiting steps as it takes. -/
def endsIn (i : Instr) (s t : State) (r : Response) : Prop :=
  ∃ n u, exec i s = .next u ∧ goesOnTo n u t ∧ t.seq = .idle ∧ t.resp = some r

/-- The requests run one after another from `s` to `t`, each ended ok, with the results `vs`, before the next is
issued. -/
def runsTo : List Instr → State → State → List Value → Prop
  | [], s, t, vs => t = s ∧ vs = []
  | i :: is, s, t, vs => ∃ u v vs', vs = v :: vs' ∧ endsIn i s u (.ok v) ∧ runsTo is u t vs'

/-- The result of an operation from the results of the parts of its expansion (41 R140, R142, 43 R169, 45 R199, R203). -/
def resultOf : Instr → List Value → Value
  | .readReg _, [_, _, v] | .readVcom, [_, _, v] | .getSysInfo, [_, v] | .enhanceDrv, v :: _ => v
  | .readReg32 _, [.word l, .word h] => .dword (h ++ l)
  | _, _ => .nothing

/-- The rows of the expansion table of 30_encoding R102 that are plain sequences of other operations. -/
def expansionOf (s : State) : Instr → Option (List Instr)
  | .sendCmdArgs code ws => some [.sendCmd code, .sendBuf ws]
  | .readReg a => some [.sendCmd s.cfg.cmdRegRd, .sendData a, .readData]
  | .writeReg a v => some [.sendCmd s.cfg.cmdRegWr, .sendData a, .sendData v]
  | .readReg32 a => some [.readReg a, .readReg (a + 2)]
  | .writeReg32 a v => some [.writeReg a (lo16 v), .writeReg (a + 2) (hi16 v)]
  | .ldImgStart i => some [.sendCmd s.cfg.cmdLdImg, .sendData (hdr i)]
  | .ldImgAreaStart i a => some [.sendCmdArgs s.cfg.cmdLdImgArea [hdr i, a.x, a.y, a.w, a.h]]
  | .ldImgEnd => some [.sendCmd s.cfg.cmdLdImgEnd]
  | .hostAreaWrite i a _ _ => some [.setTma i.target, .ldImgAreaStart i a, .sendBuf i.src, .ldImgEnd]
  | .dpyArea x y w h m => some [.sendCmdArgs s.cfg.cmdDpyArea [x, y, w, h, m]]
  | .dpyAreaBuf x y w h m t => some [.sendCmdArgs s.cfg.cmdDpyBufArea [x, y, w, h, m, lo16 t, hi16 t]]
  | .enhanceDrv =>
    some ([.readReg s.cfg.regEdc, .writeReg s.cfg.regEdc 0x0602] ++
      if s.cfg.edcReadback then [.readReg s.cfg.regEdc] else [])
  | .refresh1bpp src x y w h m t hold =>
    some [.waitDpyReady,
      .hostAreaWrite (refreshInfo s.cfg s.cfg.pixfmt1bppCarrier src t) (area1bpp s.cfg x y w h) 1 true,
      .dpy1bpp x y w h m (heldAddr hold t) s.cfg.bg1bpp s.cfg.fg1bpp]
  | .refresh2bpp src x y w h t hold => some (refreshExpansion s.cfg s.cfg.pixfmt.bpp2 2 src x y w h t hold)
  | .refresh4bpp src x y w h t hold => some (refreshExpansion s.cfg s.cfg.pixfmt.bpp4 4 src x y w h t hold)
  | .refresh8bpp src x y w h t hold => some (refreshExpansion s.cfg s.cfg.pixfmt.bpp8 8 src x y w h t hold)
  | .multiFrame1bpp x y w h t hold =>
    s.a2.map fun m => [.waitDpyReady, .dpy1bpp x y w h m (heldAddr hold t) s.cfg.bg1bpp s.cfg.fg1bpp]
  | .clearRefresh t =>
    s.di.map fun di =>
      [.waitDpyReady,
        .hostAreaWrite (refreshInfo s.cfg s.cfg.pixfmt.bpp4 (clearBuf di[0] di[1]) t) ⟨0, 0, di[0], di[1]⟩ 4 true,
        .dpyArea 0 0 di[0] di[1] s.cfg.modeGc16]
  | .sysRun => some [.sendCmd s.cfg.cmdSysRun]
  | .standby => some [.sendCmd s.cfg.cmdStandby]
  | .sleep => some [.sendCmd s.cfg.cmdSleep]
  | .getSysInfo => some [.sendCmd s.cfg.cmdGetDevInfo, .readBuf 20]
  | .readVcom => some [.sendCmd s.cfg.cmdVcom, .sendData 0, .readData]
  | .writeVcom v => some [.sendCmd s.cfg.cmdVcom, .sendData 1, .sendData v]
  | .gate | .sendCmd _ | .sendData _ | .sendBuf _ | .readData | .readBuf _ | .widthWords _ _ | .setTma _ => none
  | .waitDpyReady | .dpy1bpp _ _ _ _ _ _ _ _ | .reset | .initializeDevice _ | .shutdown => none
  | .frameFc _ | .frameFw1 _ | .frameFwn _ | .frameFr1 | .frameFrn _ | .wordLdHeader _ _ _ => none
where
  /-- `REFRESH_nBPP` for n of 2, 4, 8 (44 R180). -/
  refreshExpansion (c : Cfg) (pixfmt : BitVec 4) (n : Nat) (src : List Word) (x y w h : Word) (t : DWord)
      (hold : Bool) : List Instr :=
    [.waitDpyReady, .hostAreaWrite (refreshInfo c pixfmt src t) ⟨x, y, w, h⟩ n true,
      if hold then .dpyArea x y w h c.modeGc16 else .dpyAreaBuf x y w h c.modeGc16 t]

/-- The instructions whose expansion contains `SET_TMA`: they may set the mismatch flag. -/
def setsTarget : Instr → Bool
  | .setTma _ | .hostAreaWrite _ _ _ _ | .clearRefresh _ => true
  | .refresh1bpp _ _ _ _ _ _ _ _ | .refresh2bpp _ _ _ _ _ _ _ => true
  | .refresh4bpp _ _ _ _ _ _ _ | .refresh8bpp _ _ _ _ _ _ _ => true
  | .gate | .sendCmd _ | .sendData _ | .sendBuf _ | .readData | .readBuf _ | .sendCmdArgs _ _ => false
  | .readReg _ | .writeReg _ _ | .readReg32 _ | .writeReg32 _ _ | .widthWords _ _ => false
  | .ldImgStart _ | .ldImgAreaStart _ _ | .ldImgEnd | .waitDpyReady | .dpyArea _ _ _ _ _ => false
  | .dpyAreaBuf _ _ _ _ _ _ | .dpy1bpp _ _ _ _ _ _ _ _ | .enhanceDrv | .multiFrame1bpp _ _ _ _ _ _ => false
  | .reset | .sysRun | .standby | .sleep | .getSysInfo | .readVcom | .writeVcom _ => false
  | .initializeDevice _ | .shutdown => false
  | .frameFc _ | .frameFw1 _ | .frameFwn _ | .frameFr1 | .frameFrn _ | .wordLdHeader _ _ _ => false

/-- Whether an instruction is `INITIALIZE`: it alone is accepted by a closed session, and its faults close it. -/
def opensSession : Instr → Bool
  | .initializeDevice _ => true
  | _ => false

/-- The op numbers of 30_encoding R99. -/
def opNumbers : List Nat :=
  [0x01, 0x02, 0x03, 0x04, 0x05, 0x06, 0x07, 0x10, 0x11, 0x12, 0x13, 0x20, 0x21, 0x22, 0x23, 0x24, 0x25, 0x30, 0x31, 0x32,
    0x33, 0x34, 0x40, 0x41, 0x42, 0x43, 0x44, 0x45, 0x50, 0x51, 0x52, 0x53, 0x54, 0x55, 0x56, 0x57, 0x58]

/-! ### The duties of the host that a history shows (42 R156, 70 R251, R257) -/

/-- Every load start among the frames is followed by exactly one load end before any other command, with write frames
only between them, and no load end stands without its start (42 R156, 93 U15); `loading`: a load is open at the first
frame. -/
def loadsBracketed (c : Cfg) : Bool → List WireFrame → Bool
  | loading, [] => !loading
  | true, .command code :: fs => decide (code = c.cmdLdImgEnd) && loadsBracketed c false fs
  | false, .command code :: fs =>
    if code = c.cmdLdImg ∨ code = c.cmdLdImgArea then loadsBracketed c true fs
    else decide (code ≠ c.cmdLdImgEnd) && loadsBracketed c false fs
  | loading, .write _ :: fs => loadsBracketed c loading fs
  | loading, .read _ _ :: fs => !loading && loadsBracketed c loading fs

/-- The buffer holds exactly the words the area needs (70 R257). -/
def fillsArea (src : List Word) (area : AreaImageInfo) (bpp : Nat) : Prop :=
  src.length = wordsPerRow area.w bpp * area.h.toNat

/-! ### The safe form of an event history -/

/-- Where a history stands with respect to chip-select (30_encoding R81, R83). -/
inductive Scope where
  | outside
  /-- After `CS(1)`. -/
  | fresh
  /-- After the preamble's first byte. -/
  | half (b : Byte)
  /-- In a command frame before its word, inside it, after it. -/
  | cmdOpen
  | cmdHalf
  | cmdDone
  /-- In a write frame, between words and inside one. -/
  | write
  | writeHalf
  /-- In a read frame, between words and inside one. -/
  | read
  | readHalf
deriving DecidableEq, Repr

/-- What a history so far allows next. `poised`: the last event was a ready sample. -/
structure Scan where
  claimed : Bool
  scope : Scope
  poised : Bool
deriving DecidableEq, Repr

/-- The scope a preamble opens (30_encoding R81). -/
def scopeOf (pre : Word) : Option Scope :=
  if pre = Config.preCmd then some .cmdOpen
  else if pre = Config.preWr then some .write
  else if pre = Config.preRd then some .read
  else none

/-- A scope in which the block may sample or sleep: between words. -/
def Scope.between : Scope → Bool
  | .outside | .cmdOpen | .write | .read => true
  | .fresh | .half _ | .cmdHalf | .cmdDone | .writeHalf | .readHalf => false

/-- One event of a safe history; none if it is not safe. Nothing but `OPEN` happens while the transport is closed
(45 R207); `RST`, `OPEN`, `CLOSE` and `CS(1)` lie outside a scope; the first two bytes of a scope are a preamble; `CS(1)`
and every later byte pair directly follow a ready sample; bytes are received in read scopes only (40 R128). -/
def scanEvent (c : Cfg) (k : Scan) : Event → Option Scan
  | .opened ok =>
    if k.claimed = false ∧ k.scope = .outside then some { claimed := ok, scope := .outside, poised := false } else none
  | .closed =>
    if k.claimed = true ∧ k.scope = .outside then some { claimed := false, scope := .outside, poised := false } else none
  | .rst _ =>
    if k.claimed = true ∧ k.scope = .outside then some { k with poised := false } else none
  | .rdy l =>
    if k.claimed = true ∧ k.scope.between = true then some { k with poised := lineReady c l } else none
  | .sleep _ =>
    if k.claimed = true ∧ k.scope.between = true then some { k with poised := false } else none
  | .cs true =>
    if k.claimed = true ∧ k.scope = .outside ∧ k.poised = true then some { k with scope := .fresh, poised := false }
    else none
  | .cs false =>
    match k.scope with
    | .cmdOpen | .cmdDone | .write | .read => some { k with scope := .outside, poised := false }
    | .outside | .fresh | .half _ | .cmdHalf | .writeHalf | .readHalf => none
  | .tx b =>
    match k.scope with
    | .fresh => some { k with scope := .half b, poised := false }
    | .half a => (scopeOf (ofBytes a b)).map (fun sc => { k with scope := sc, poised := false })
    | .cmdOpen => if k.poised = true then some { k with scope := .cmdHalf, poised := false } else none
    | .cmdHalf => some { k with scope := .cmdDone, poised := false }
    | .write => if k.poised = true then some { k with scope := .writeHalf, poised := false } else none
    | .writeHalf => some { k with scope := .write, poised := false }
    | .outside | .cmdDone | .read | .readHalf => none
  | .rx _ =>
    match k.scope with
    | .read => if k.poised = true then some { k with scope := .readHalf, poised := false } else none
    | .readHalf => some { k with scope := .read, poised := false }
    | .outside | .fresh | .half _ | .cmdOpen | .cmdHalf | .cmdDone | .write | .writeHalf => none

/-- Scan a history from `k`. -/
def scanFrom (c : Cfg) : Scan → List Event → Option Scan
  | k, [] => some k
  | k, e :: es =>
    match scanEvent c k e with
    | some k' => scanFrom c k' es
    | none => none

/-- Scan a whole history: the transport is closed before its first event. -/
def scanAll (c : Cfg) (es : List Event) : Option Scan :=
  scanFrom c { claimed := false, scope := .outside, poised := false } es

/-- The events a primitive puts on the bus when no poll fails, with zeros for received bytes. -/
def Prim.events (c : Cfg) : Prim → List Event
  | .gate => [readyEvent c]
  | .cs on => [.cs on]
  | .tx w => txEvents w
  | .txMasked _ => txEvents 0
  | .rxDummy | .rxWord => rxEvents 0
  | .dpyTest _ | .raiseLate | .tmaCheck _ | .storeInfo | .endIfVcom _ => []
  | .rst l => [.rst l]
  | .sleep d => [.sleep d]
  | .claim => [.opened true]
  | .release => [.closed]

/-- Where a primitive may stand: a masked word only as the payload of a write frame, every test outside a scope. -/
def Prim.placed (k : Scan) : Prim → Bool
  | .txMasked _ => decide (k.scope = .write)
  | .dpyTest _ | .raiseLate | .tmaCheck _ | .storeInfo | .endIfVcom _ => decide (k.scope = .outside) && k.claimed
  | .gate | .cs _ | .tx _ | .rxDummy | .rxWord | .rst _ | .sleep _ | .claim | .release => true

/-- The rest of an operation keeps the history safe from `k` on and ends outside a scope. A test is no ready sample. -/
def safeFrom (c : Cfg) : Scan → List Prim → Bool
  | k, [] => decide (k.scope = .outside)
  | k, p :: ps =>
    p.placed k &&
      match scanFrom c k (p.events c) with
      | some k' =>
        match p with
        | .dpyTest _ | .raiseLate | .tmaCheck _ | .storeInfo | .endIfVcom _ => safeFrom c { k' with poised := false } ps
        | .gate | .cs _ | .tx _ | .txMasked _ | .rxDummy | .rxWord | .rst _ | .sleep _ | .claim | .release =>
          safeFrom c k' ps
      | none => false

/-- What a history's end must agree with: the session flag, the chip-select latch and the sequencer. -/
structure State.Agrees (s : State) (k : Scan) : Prop where
  session : k.claimed = s.isOpen
  latch : s.cs = .asserted ↔ k.scope ≠ .outside
  idle : s.seq = .idle → k.scope = .outside
  running : ∀ j, s.seq = .running j → k.claimed = true ∧ safeFrom s.cfg { k with poised := false } j.todo = true

/-- The invariant of every step: the history is safe and the state agrees with it. -/
def State.SafeHistory (s : State) : Prop := ∃ k, scanAll s.cfg s.trace = some k ∧ s.Agrees k

/-- The fake backend's register map is in canonical form; nothing to ask of a tape. -/
def Env.canonical : Env → Bool
  | .tape _ => true
  | .fake b => regsWf b.regs

/-- The primitives that the rest of a waiting operation may hold: it is past its open and its reset, and it stores or
compares only what its instruction does. -/
def Prim.mayFollowWait (op : Instr) : Prim → Bool
  | .claim | .release | .rst _ | .sleep _ => false
  | .storeInfo | .endIfVcom _ => opensSession op
  | .tmaCheck _ => setsTarget op
  | .gate | .cs _ | .tx _ | .txMasked _ | .rxDummy | .rxWord | .dpyTest _ | .raiseLate => true

/-- A waiting operation: the session is open, there is no result yet, a fault closes the transport for `INITIALIZE`
alone (45 R205), and what is left of it is its instruction's. -/
structure Job.Sound (j : Job) (s : State) : Prop where
  session : s.isOpen = true
  silent : s.resp = none
  closes : j.closeOnFault = opensSession j.op
  rest : j.todo.all (Prim.mayFollowWait j.op) = true

/-- The operation in progress, if there is one, is sound. -/
def State.JobSound (s : State) : Prop := ∀ j, s.seq = .running j → j.Sound s

/-- The session registers are written together (45 R205). -/
def State.snapshotWhole (s : State) : Prop := s.di.isSome = s.a2.isSome

end Sys2Proof.Machine
end

