-- ==== Sys2Proof/Certificates/Slice0/Obligations.lean ====
section
/-!
DEFINITION. The statements for the provers. Each docstring names the rule of spec/ it formalises; a log entry or a
decision of 92_eei_decisions named there is a choice the statement rests on.
-/

open Sys2Proof Sys2Proof.Machine

/-! ### Encoding -/

/-- Decoding an encoded well-formed instruction gives it back (log 7, 8: the items are the model's own form). -/
def Obligations.DecodeEncodeRoundTrip : Prop :=
  ∀ i : Instr, i.wellFormed = true → decode (encode i) = .ok i

/-- A request has one meaning: what a request decodes to encodes to that request (30_encoding R99). -/
def Obligations.DecodedRequestEncodesBack : Prop :=
  ∀ (op : BitVec 8) (args : List Operand) (i : Instr), decode (.request op args) = .ok i → encode i = .request op args

/-- Words written out from the spec decode to the instructions they stand for: 30_encoding R83, R86, R99, 95 V2, V7b. -/
def Obligations.SpecWordsDecode : Prop :=
  decode (.request 0x01 []) = .ok .gate ∧
  decode (.request 0x11 [.u16 0x0004, .u16 0x0001]) = .ok (.writeReg 0x0004 0x0001) ∧
  decode (.request 0x57 [.u16 1500]) = .ok (.initializeDevice 1500) ∧
  decode (.wire [0x60, 0x00, 0x00, 0x01]) = .ok (.frameFc 0x0001) ∧
  decode (.wire [0x00, 0x00, 0x12, 0x24]) = .ok (.frameFw1 0x1224) ∧
  decode (.wire [0x10, 0x00, 0xAB, 0xCD, 0x12, 0x34]) = .ok .frameFr1 ∧
  decode (.wire [0x01, 0x31]) = .ok (.wordLdHeader 1 3 1) ∧
  decodeTableWord 32 0x60000034 = some (.frameFc 0x0034) ∧
  decodeTableWord 8 0x58 = some .shutdown

/-- A request whose op number is not one of the 37 is refused `UnknownOp`: the request is taken off the port, no event
happens and nothing else changes (30_encoding R100, 60 R226; D24). -/
def Obligations.UnknownOpIsRefused : Prop :=
  ∀ (s : State) (op : BitVec 8) (args : List Operand) (rest : List PortItem),
    s.seq = .idle → s.port = .request op args :: rest → op.toNat ∉ opNumbers →
    step s = .next { s with port := rest, resp := some (.refused .unknownOp) }

/-- The header word holds its three fields, bits 15:9 are zero (D13), and or and plus give the same word
(30_encoding R86). -/
def Obligations.HeaderWordFields : Prop :=
  ∀ (e : BitVec 1) (p q : BitVec 4),
    (headerWord e p q).extractLsb' 9 7 = 0 ∧ (headerWord e p q).extractLsb' 8 1 = e ∧
    (headerWord e p q).extractLsb' 4 4 = p ∧ (headerWord e p q).extractLsb' 0 4 = q ∧
    headerWord e p q = (e.zeroExtend 16 <<< 8) + (p.zeroExtend 16 <<< 4) + q.zeroExtend 16

/-- The grey pair: which byte is which follows `BGVR_FG_HIGH` (30_encoding R94). -/
def Obligations.GreyPairBytes : Prop :=
  ∀ (c : Cfg) (bg fg : Byte),
    (bgvr c bg fg).extractLsb' 8 8 = (if c.bgvrFgHigh then fg else bg) ∧
    (bgvr c bg fg).extractLsb' 0 8 = (if c.bgvrFgHigh then bg else fg)

/-- Setting and clearing the 1bpp bit change that bit only (30_encoding R95). -/
def Obligations.ModeSelectBitOnly : Prop :=
  ∀ (c : Cfg) (v : Word) (i : Fin 16),
    (with1bpp c true v)[i] = (if i = c.bit1bpp then true else v[i]) ∧
    (with1bpp c false v)[i] = (if i = c.bit1bpp then false else v[i])

/-- Every word the block transmits crosses the wire as bits 15:8 then bits 7:0, in every state and configuration
(20_memory R54): `tx` transmits its word and `txMasked` the word read last with the mode-select bit set or cleared, and no
other primitive transmits. -/
def Obligations.WordsCrossHighByteFirst : Prop :=
  ∀ (w : Word) (on : Bool) (j : Job) (s : State),
    (∃ t, perform (.tx w) j s = .go j t ∧
      t.trace = s.trace ++ [.tx (w.extractLsb' 8 8), .tx (w.extractLsb' 0 8)]) ∧
    (∃ t, perform (.txMasked on) j s = .go j t ∧
      t.trace = s.trace ++
        [.tx ((with1bpp s.cfg on j.last).extractLsb' 8 8), .tx ((with1bpp s.cfg on j.last).extractLsb' 0 8)]) ∧
    (∀ p : Prim, (∀ v, p ≠ .tx v) → (∀ b, p ≠ .txMasked b) →
      ∃ evs, (perform p j s).state.trace = s.trace ++ evs ∧ ∀ b, .tx b ∉ evs)

/-- The frames the framing layer emits are read back by the wire decoder as the frames of 30_encoding R103. -/
def Obligations.EmittedFramesDecode : Prop :=
  ∀ (c : Cfg) (code d : Word) (ws : List Word),
    frames (cmdFrame c code) = some [.command code] ∧
    (ws ≠ [] → frames (dataFrame c ws) = some [.write ws]) ∧
    (ws ≠ [] → frames (readFrame c d ws) = some [.read d ws])

/-! ### Steps, reset, invariants -/

/-- A step of an idle block takes the next request off the port and runs the instruction it decodes to; a step of a
block with an operation in progress goes on with it from its position, whatever waits on the port; an idle block with an
empty port waits (10_state R27; log 4, 6). -/
def Obligations.StepRunsDecodedInstr : Prop :=
  (∀ (s : State) (item : PortItem) (rest : List PortItem) (i : Instr),
    s.seq = .idle → s.port = item :: rest → decode item = .ok i →
    step s = exec i { s with port := rest }) ∧
  (∀ (s : State) (j : Job), s.seq = .running j → step s = .next (runPrims j.todo j { s with seq := .idle })) ∧
  (∀ s : State, s.seq = .idle → s.port = [] → step s = .next s)

/-- Reset leaves every field of the block's state at the value of 10_state R20 and 70 R245 (D26 marks these values as
the spec's own choice). -/
def Obligations.ResetValues : Prop :=
  State.reset.isOpen = false ∧ State.reset.di = none ∧ State.reset.a2 = none ∧ State.reset.cs = .undriven ∧
  State.reset.rst = .undriven ∧ State.reset.tmaMismatch = false ∧ State.reset.seq = .idle ∧ State.reset.trace = []

/-- The invariants of the statements below hold at reset. They rest on the reset values, which the spec marks as its own
choice (D26, log 9), and on the canonical form of the fake backend's map, which is the model's (log 3). -/
def Obligations.ResetMeetsInvariants : Prop :=
  State.reset.SafeHistory ∧ State.reset.env.canonical = true ∧ State.reset.snapshotWhole ∧ State.reset.JobSound

/-- Every step keeps the event history safe: frames bracketed by chip-select, preambles first, every word directly
after a ready sample, nothing outside the session (40 R128 but for the words "preceded only by" of its clause (d), 45
R207). The scan and the agreement of state and history are the model's form of those rules. -/
def Obligations.StepKeepsHistorySafe : Prop :=
  ∀ s t : State, s.SafeHistory → step s = .next t → t.SafeHistory

/-- Every step keeps the fake backend's register map canonical (log 3), the session registers written both or neither,
and the operation in progress sound: its session is open, it has no result yet, and what is left of it is its
instruction's (45 R205, 10_state R27; step grain: log 4). -/
def Obligations.StepKeepsDataWhole : Prop :=
  ∀ s t : State, step s = .next t →
    (s.env.canonical = true → t.env.canonical = true) ∧ (s.snapshotWhole → t.snapshotWhole) ∧
    (s.JobSound → t.JobSound)

/-- No step changes the configuration, none takes an event back, and none clears the mismatch flag (70 R248, 10_state
R26, R28, 20_memory R63(e)). -/
def Obligations.StepKeepsCfgHistoryAndFlag : Prop :=
  ∀ s t : State, step s = .next t →
    t.cfg = s.cfg ∧ s.trace <+: t.trace ∧ (s.tmaMismatch = true → t.tmaMismatch = true)

/-- No operation reads the mismatch flag, when it is executed and when a step goes on with it: two blocks that differ in
the flag alone go on alike (10_state R26). -/
def Obligations.MismatchFlagUnread : Prop :=
  (∀ (i : Instr) (s t u : State),
    exec i { s with tmaMismatch := true } = .next t → exec i { s with tmaMismatch := false } = .next u →
    { u with tmaMismatch := true } = t) ∧
  (∀ s t u : State,
    step { s with tmaMismatch := true } = .next t → step { s with tmaMismatch := false } = .next u →
    { u with tmaMismatch := true } = t)

/-- No instruction stops the model: a fault or a refusal of the spec is a next state with that response (log 5). -/
def Obligations.EveryInstrAnswersNext : Prop :=
  ∀ (i : Instr) (s : State), ∃ t, exec i s = .next t

/-- What every instruction but `RESET`, `INITIALIZE` and `SHUTDOWN` leaves unchanged in any next state, a completed, a
waiting, a faulted and a refused one, and in any step that goes on with it: the session flag, the session registers, the
reset pin, the configuration and the port; and the mismatch flag, unless its expansion contains `SET_TMA` (10_state R20
to R26; the soundness of a waiting operation is kept by every step: `StepKeepsDataWhole`). -/
def Obligations.OrdinaryInstrFrame : Prop :=
  (∀ (i : Instr) (s t : State), (∀ v, i ≠ .initializeDevice v) → i ≠ .reset → i ≠ .shutdown → exec i s = .next t →
    t.isOpen = s.isOpen ∧ t.di = s.di ∧ t.a2 = s.a2 ∧ t.rst = s.rst ∧ t.cfg = s.cfg ∧ t.port = s.port ∧
    s.trace <+: t.trace ∧ (setsTarget i = false → t.tmaMismatch = s.tmaMismatch)) ∧
  (∀ (s t : State) (j : Job), s.JobSound → s.seq = .running j → (∀ v, j.op ≠ .initializeDevice v) →
    step s = .next t →
    t.isOpen = s.isOpen ∧ t.di = s.di ∧ t.a2 = s.a2 ∧ t.rst = s.rst ∧ t.cfg = s.cfg ∧ t.port = s.port ∧
    s.trace <+: t.trace ∧ (setsTarget j.op = false → t.tmaMismatch = s.tmaMismatch))

/-- What the three other instructions leave unchanged: `RESET` all but the reset pin's latch, the history and the
response, the environment too, and it never waits (45 R195(f)); `INITIALIZE` the configuration, the port and the mismatch
flag (45 R205), and where a step goes on with it the reset pin's latch too. That the latch keeps its value also where
that step ends in a fault and closes the transport is the model's reading (log 10), and what one step goes on to is its
grain (log 4); what `SHUTDOWN` leaves is `ShutdownCompletes`. -/
def Obligations.LifecycleInstrFrame : Prop :=
  (∀ s t : State, exec .reset s = .next t →
    { t with rst := s.rst, trace := s.trace, resp := s.resp } = s) ∧
  (∀ (v : Word) (s t : State), exec (.initializeDevice v) s = .next t →
    t.cfg = s.cfg ∧ t.port = s.port ∧ t.tmaMismatch = s.tmaMismatch ∧ s.trace <+: t.trace) ∧
  (∀ (v : Word) (s t : State) (j : Job), s.JobSound → s.seq = .running j → j.op = .initializeDevice v →
    step s = .next t →
    t.cfg = s.cfg ∧ t.port = s.port ∧ t.tmaMismatch = s.tmaMismatch ∧ s.trace <+: t.trace ∧ t.rst = s.rst)

/-! ### Refusals -/

/-- A closed session refuses every instruction but `INITIALIZE` and `WIDTH_WORDS`, and the refusal changes nothing but
the response (60 R226, 10_state R21; D24; for the wire rows log 7). -/
def Obligations.ClosedSessionRefuses : Prop :=
  ∀ (i : Instr) (s : State), s.seq = .idle → s.isOpen = false →
    (∀ v, i ≠ .initializeDevice v) → (∀ w b, i ≠ .widthWords w b) →
    exec i s = .next { s with resp := some (.refused .notOpen) }

/-- A request while an operation runs is refused `Busy`, before any other test; an open session refuses `INITIALIZE`
(60 R226, R228; D24, D30). -/
def Obligations.BusyAndAlreadyOpenRefuse : Prop :=
  (∀ (i : Instr) (s : State) (j : Job), s.seq = .running j →
    exec i s = .next { s with resp := some (.refused .busy) }) ∧
  (∀ (v : Word) (s : State), s.Accepts →
    exec (.initializeDevice v) s = .next { s with resp := some (.refused .alreadyOpen) })

/-- An empty buffer or a zero count, and a panel without pixels, are refused before any event (60 R226; D8). -/
def Obligations.EmptyBufferRefused : Prop :=
  ∀ (s : State), s.Accepts → ∀ i : Instr,
    (i = .sendBuf [] ∨ i = .readBuf 0 ∨ (∃ code, i = .sendCmdArgs code []) ∨
      (∃ info a b p, info.src = [] ∧ i = .hostAreaWrite info a b p) ∨
      (∃ x y w h m t k, i = .refresh1bpp [] x y w h m t k) ∨ (∃ x y w h t k, i = .refresh2bpp [] x y w h t k) ∨
      (∃ x y w h t k, i = .refresh4bpp [] x y w h t k) ∨ (∃ x y w h t k, i = .refresh8bpp [] x y w h t k) ∨
      (∃ t di, s.di = some di ∧ (di[0] = 0 ∨ di[1] = 0) ∧ i = .clearRefresh t)) →
    exec i s = .next { s with resp := some (.refused .emptyBuffer) }

/-- The two operations that read a session register are refused while it is unwritten, and so is the host's read of it
(10_state R38, 60 R226; D25). -/
def Obligations.UnwrittenRegisterRefused : Prop :=
  (∀ (s : State) (t : DWord), s.Accepts → s.di = none →
    exec (.clearRefresh t) s = .next { s with resp := some (.refused .unwrittenRegister) }) ∧
  (∀ (s : State) (x y w h : Word) (t : DWord) (hold : Bool), s.Accepts → s.a2 = none →
    exec (.multiFrame1bpp x y w h t hold) s = .next { s with resp := some (.refused .unwrittenRegister) }) ∧
  (∀ (s : State) (i : Fin 21), s.di = none → s.a2 = none → s.sessionReg i = .refused .unwrittenRegister)

/-! ### Framing layer -/

/-- `GATE` ends at its first ready sample, after any number of failed ones below its bound, with the events of its polls
and nothing else; with none it is one `RDY` event (40 R120, its example L, L, H, and (a), (c); D7). An operation that
waits at a gate and then samples ready goes on with the rest of it, the gate's poll counter back at 0 (step grain: log
4). -/
def Obligations.GateCompletes : Prop :=
  (∀ (s : State) (l : Level) (e : Tape), s.Accepts → l = s.cfg.readyLevel →
    s.env = .tape { e with rdy := l :: e.rdy } →
    exec .gate s = .next { s with trace := s.trace ++ [.rdy l], env := .tape e, resp := some (.ok .nothing) }) ∧
  (∀ (n : Nat) (s : State) (l r : Level) (e : Tape), s.Accepts → l ≠ s.cfg.readyLevel → r = s.cfg.readyLevel →
    (∀ b : ℕ+, s.cfg.pollBound = some b → n < (b : Nat)) →
    s.env = .tape { e with rdy := List.replicate n l ++ r :: e.rdy } →
    endsIn .gate s { s with
      trace := s.trace ++ (List.replicate n (failedPoll s.cfg l)).flatten ++ [.rdy r],
      env := .tape e, resp := some (.ok .nothing) } (.ok .nothing)) ∧
  (∀ (s : State) (j : Job) (rest : List Prim) (l : Level) (e : Tape),
    s.seq = .running j → j.todo = .gate :: rest → l = s.cfg.readyLevel → s.env = .tape { e with rdy := l :: e.rdy } →
    step s = .next (runPrims rest { j with gatePolls := 0 }
      { s with seq := .idle, trace := s.trace ++ [.rdy l], env := .tape e }))

/-- `SEND_CMD`, `SEND_DATA`, `SEND_BUF`, `SEND_CMD_ARGS` complete with exactly their frames (40 R122 to R124, R127; D4,
D10). -/
def Obligations.WriteFramesComplete : Prop :=
  ∀ (s : State) (e : Tape) (code v : Word) (ws : List Word), s.Accepts →
    (s.env = Env.script s.cfg 2 [] e →
      exec (.sendCmd code) s = .next (s.ended e (cmdFrame s.cfg code) .nothing)) ∧
    (s.env = Env.script s.cfg 2 [] e →
      exec (.sendData v) s = .next (s.ended e (dataFrame s.cfg [v]) .nothing)) ∧
    (s.env = Env.script s.cfg (ws.length + 1) [] e → ws ≠ [] →
      exec (.sendBuf ws) s = .next (s.ended e (dataFrame s.cfg ws) .nothing)) ∧
    (s.env = Env.script s.cfg (ws.length + 3) [] e → ws ≠ [] →
      exec (.sendCmdArgs code ws) s = .next (s.ended e (cmdFrame s.cfg code ++ dataFrame s.cfg ws) .nothing))

/-- `READ_DATA` and `READ_BUF` complete with exactly their frame; the dummy word is on the wire and not in the result
(40 R125, R126; D4, D5). -/
def Obligations.ReadFramesComplete : Prop :=
  ∀ (s : State) (e : Tape) (d v : Word) (ws : List Word), s.Accepts →
    (s.env = Env.script s.cfg 3 [d, v] e →
      exec .readData s = .next (s.ended e (readFrame s.cfg d [v]) (.word v))) ∧
    (s.env = Env.script s.cfg (ws.length + 2) (d :: ws) e → ws ≠ [] →
      exec (.readBuf ws.length) s = .next (s.ended e (readFrame s.cfg d ws) (.words ws)))

/-! ### Waiting -/

/-- The infinite run of each wait loop: however long the environment answers not ready (or busy), the operation keeps
its position and only its poll counter and the history grow (60 R224), as long as no configured bound is hit (40 R120, 43
R165; D7). With no bound that is every number of polls. -/
def Obligations.WaitLoopsRunForever : Prop :=
  (∀ (n : Nat) (s : State) (j : Job) (rest : List Prim) (l : Level) (e : Tape),
    s.seq = .running j → j.todo = .gate :: rest → (∀ b : ℕ+, s.cfg.pollBound = some b → j.gatePolls + n < (b : Nat)) →
    l ≠ s.cfg.readyLevel → s.env = .tape { e with rdy := List.replicate n l ++ e.rdy } →
    Host.Core.run Sys2Proof.core n s = .next { s with
      seq := .running { j with gatePolls := j.gatePolls + n },
      trace := s.trace ++ (List.replicate n (failedPoll s.cfg l)).flatten,
      env := .tape e }) ∧
  (∀ (n : Nat) (s : State) (j : Job) (defer : Bool) (rest : List Prim) (d v : Word) (e : Tape),
    s.seq = .running j → j.todo = waitDpySeq s.cfg defer ++ rest → j.gatePolls = 0 → s.cs = .deasserted →
    (∀ b : ℕ+, s.cfg.pollBound = some b → j.dpyPolls + n < (b : Nat)) → v ≠ 0 →
    s.env = Env.script s.cfg (7 * n) ((List.replicate n [d, v]).flatten) e →
    Host.Core.run Sys2Proof.core n s = .next { s with
      seq := .running { j with dpyPolls := j.dpyPolls + n },
      trace := s.trace ++ (List.replicate n (busyPoll s.cfg d v)).flatten,
      env := .tape e })

/-- A gate whose bound is hit ends the operation wherever it stands in it, in the run of `exec` and in a step that goes
on: chip-select is deasserted first if it was asserted, then the fault, and a fault of `INITIALIZE` closes the transport
(40 R120, 60 R225, R229, 45 R205; D7). With a bound of one poll, an `exec` that saw a line not ready has so ended. What
the latches `S.CS` and `S.RST` hold after that close is the model's reading (log 10), and the step is the model's grain
(log 4). -/
def Obligations.GateTimeoutEndsOperation : Prop :=
  (∀ (s : State) (j : Job) (rest : List Prim) (b : ℕ+) (l : Level) (e : Tape),
    s.cfg.pollBound = some b → (b : Nat) ≤ j.gatePolls + 1 → l ≠ s.cfg.readyLevel →
    s.env = .tape { e with rdy := l :: e.rdy } →
    let t := s.faulted j e (if s.cs = .asserted then .deasserted else s.cs)
      (.rdy l :: (if s.cs = .asserted then [.cs false] else [])) (.waitTimeout .gate)
    runPrims (.gate :: rest) j s = t ∧ (s.seq = .running j → j.todo = .gate :: rest → step s = .next t)) ∧
  (∀ (i : Instr) (s t : State) (l : Level),
    s.cfg.pollBound = some 1 → exec i s = .next t → l ≠ s.cfg.readyLevel → .rdy l ∈ t.trace.drop s.trace.length →
    t.seq = .idle ∧ t.cs ≠ .asserted ∧ t.isOpen = !opensSession i ∧ t.resp = some (.fault (.waitTimeout .gate)) ∧
    ∃ mid, ∃ off ∈ [[], [Event.cs false]],
      t.trace = s.trace ++ mid ++ .rdy l :: off ++ (if opensSession i then [.closed] else []))

/-- The display wait on a busy status. Executed, `WAIT_DPY_READY` waits at the start of its loop while its bound, if
any, is more than one poll, and ends in the fault where it is one. Any operation that goes on at its display wait and
hits its bound with this poll ends in the fault, or, in `DPY_1BPP`, keeps the timeout back and goes on to clear the bit
(43 R165, R168, 60 R225; D7); below the bound it waits: `WaitLoopsRunForever`. The waiting state after one `exec` is the
model's step grain (log 4), and where the fault closes the transport of `INITIALIZE`, what the latches `S.CS` and `S.RST`
hold then is the model's reading (log 10). -/
def Obligations.BusyDisplayWaitsOrTimesOut : Prop :=
  (∀ (s : State) (e : Tape) (d v : Word), s.Accepts → s.env = Env.script s.cfg 7 [d, v] e → v ≠ 0 →
    ((∀ b : ℕ+, s.cfg.pollBound = some b → 1 < (b : Nat)) →
      exec .waitDpyReady s = .next { s with
        seq := .running
          { op := .waitDpyReady, todo := waitDpySeq s.cfg false, ret := .nothing, got := [], gatePolls := 0,
            dpyPolls := 1, late := false, closeOnFault := false },
        cs := .deasserted, trace := s.trace ++ busyPoll s.cfg d v, env := .tape e, resp := none }) ∧
    (s.cfg.pollBound = some 1 →
      exec .waitDpyReady s = .next { s with
        cs := .deasserted,
        trace := s.trace ++ readRegEvents s.cfg s.cfg.regDpyStatus d v,
        env := .tape e, resp := some (.fault (.waitTimeout .display)) })) ∧
  (∀ (s : State) (j : Job) (defer : Bool) (rest : List Prim) (b : ℕ+) (d v : Word) (e : Tape),
    s.seq = .running j → j.todo = waitDpySeq s.cfg defer ++ rest → j.gatePolls = 0 → v ≠ 0 →
    s.cfg.pollBound = some b → (b : Nat) ≤ j.dpyPolls + 1 → s.env = Env.script s.cfg 7 [d, v] e →
    step s = .next (
      if defer then
        runPrims rest { j with dpyPolls := 0, late := true }
          { s with
            seq := .idle, cs := .deasserted, trace := s.trace ++ readRegEvents s.cfg s.cfg.regDpyStatus d v,
            env := .tape e }
      else
        s.faulted j e .deasserted (readRegEvents s.cfg s.cfg.regDpyStatus d v) (.waitTimeout .display)))

/-- `DPY_1BPP` whose display wait times out still clears the mode-select bit, by a fresh read and write, and only then
ends in the fault (43 R168, 70 R252; D7, D16): executed with a bound of one poll; executed with a larger bound or none it
waits on a busy status with that clearing still to do; and any operation that goes on there and hits its bound clears
the bit and ends. The waiting state after one `exec` is the model's step grain (log 4); a job whose fault closes the
transport, which no run has there, keeps the latches as the model reads it (log 10). -/
def Obligations.LateTimeoutClearsBit : Prop :=
  (∀ (s : State) (e : Tape) (x y w h mode : Word) (addr : Option DWord) (bg fg : Byte) (d1 v d2 st d3 v2 : Word),
    s.Accepts → s.cfg.pollBound = some 1 → st ≠ 0 →
    s.env = Env.script s.cfg (displayGates addr + 39) [d1, v, d2, st, d3, v2] e →
    exec (.dpy1bpp x y w h mode addr bg fg) s = .next { s with
      cs := .deasserted,
      trace := s.trace ++ mono1bppEvents s.cfg x y w h mode addr bg fg d1 v d2 st d3 v2,
      env := .tape e, resp := some (.fault (.waitTimeout .display)) }) ∧
  (∀ (s : State) (e : Tape) (x y w h mode : Word) (addr : Option DWord) (bg fg : Byte) (d1 v d2 st : Word),
    s.Accepts → (∀ b : ℕ+, s.cfg.pollBound = some b → 1 < (b : Nat)) → st ≠ 0 →
    s.env = Env.script s.cfg (displayGates addr + 26) [d1, v, d2, st] e →
    exec (.dpy1bpp x y w h mode addr bg fg) s = .next { s with
      seq := .running
        { op := .dpy1bpp x y w h mode addr bg fg, todo := waitDpySeq s.cfg true ++ clear1bppSeq s.cfg,
          ret := .nothing, got := [v], gatePolls := 0, dpyPolls := 1, late := false, closeOnFault := false },
      cs := .deasserted,
      trace := s.trace ++ readRegEvents s.cfg s.cfg.reg1bppCtrl d1 v ++
        writeRegEvents s.cfg s.cfg.reg1bppCtrl (v ||| mask1bpp s.cfg) ++
        writeRegEvents s.cfg s.cfg.regBgvr (bgvr s.cfg bg fg) ++ displayEvents s.cfg x y w h mode addr ++
        busyPoll s.cfg d2 st,
      env := .tape e, resp := none }) ∧
  (∀ (s : State) (j : Job) (b : ℕ+) (e : Tape) (d2 st d3 v2 : Word),
    s.seq = .running j → j.todo = waitDpySeq s.cfg true ++ clear1bppSeq s.cfg → j.gatePolls = 0 → st ≠ 0 →
    s.cfg.pollBound = some b → (b : Nat) ≤ j.dpyPolls + 1 → s.env = Env.script s.cfg 20 [d2, st, d3, v2] e →
    step s = .next (s.faulted j e .deasserted
      (readRegEvents s.cfg s.cfg.regDpyStatus d2 st ++ readRegEvents s.cfg s.cfg.reg1bppCtrl d3 v2 ++
        writeRegEvents s.cfg s.cfg.reg1bppCtrl (v2 &&& ~~~(mask1bpp s.cfg))) (.waitTimeout .display)))

/-- The only assumption an ending needs is about the oracle: if every sample is ready and every received byte is zero
for long enough, every instruction ends (70 R263). -/
def Obligations.EveryInstrEndsUnderFairOracle : Prop :=
  ∀ (i : Instr) (s : State), s.seq = .idle → ∃ n m : Nat, ∀ e : Tape, ∃ t,
    exec i { s with
      env := .tape
        { rdy := List.replicate n s.cfg.readyLevel ++ e.rdy, rx := List.replicate m 0 ++ e.rx,
          opens := true :: e.opens } } = .next t ∧ t.seq = .idle

/-! ### Register access -/

/-- The four register operations complete: their frames, low word first for a pair, the high word at address + 2, and
the value read (41 R140 to R143; D9, D14). -/
def Obligations.RegisterAccessCompletes : Prop :=
  ∀ (s : State) (e : Tape) (a v d1 r1 d2 r2 : Word) (v32 : DWord), s.Accepts →
    (s.env = Env.script s.cfg 7 [d1, r1] e →
      exec (.readReg a) s = .next (s.ended e (readRegEvents s.cfg a d1 r1) (.word r1))) ∧
    (s.env = Env.script s.cfg 6 [] e →
      exec (.writeReg a v) s = .next (s.ended e (writeRegEvents s.cfg a v) .nothing)) ∧
    (s.env = Env.script s.cfg 14 [d1, r1, d2, r2] e →
      exec (.readReg32 a) s =
        .next (s.ended e (readRegEvents s.cfg a d1 r1 ++ readRegEvents s.cfg (a + 2) d2 r2) (.dword (r2 ++ r1)))) ∧
    (s.env = Env.script s.cfg 12 [] e →
      exec (.writeReg32 a v32) s =
        .next (s.ended e (writeRegEvents s.cfg a (v32.extractLsb' 0 16) ++
          writeRegEvents s.cfg (a + 2) (v32.extractLsb' 16 16)) .nothing))

/-- Against the fake backend, `WRITE_REG A, V` then `READ_REG A` returns V, for every address and value (of the status
register, if no busy polls are left, 92 D29); against the unconstrained oracle it need not (41 R145). -/
def Obligations.WriteThenReadRegister : Prop :=
  (∀ (s : State) (b : Backend) (a v : Word), s.Accepts → s.env = .fake b → regsWf b.regs = true →
    (a ≠ s.cfg.regDpyStatus ∨ b.busyLeft = 0) →
    ∃ t u, exec (.writeReg a v) s = .next t ∧ exec (.readReg a) t = .next u ∧ u.resp = some (.ok (.word v))) ∧
  (∀ a v : Word, ∃ (s t u : State) (w : Word), s.Accepts ∧ exec (.writeReg a v) s = .next t ∧
    exec (.readReg a) t = .next u ∧ u.resp = some (.ok (.word w)) ∧ w ≠ v)

/-- Against the fake backend, `WRITE_REG` changes the addressed register and no other, and `WRITE_VCOM V` then
`READ_VCOM` returns V, where the VCOM command is not the register-read command (92 D29, 45 R204(b); log 3). -/
def Obligations.BackendRemembersWrites : Prop :=
  (∀ (s : State) (b : Backend) (a v : Word), s.Accepts → s.env = .fake b → regsWf b.regs = true →
    ∃ t b', exec (.writeReg a v) s = .next t ∧ t.env = .fake b' ∧
      (∀ a' : Word, regsRead b'.regs a'.toNat = if a' = a then v else regsRead b.regs a'.toNat) ∧
      b'.devinfo = b.devinfo ∧ b'.busyLeft = b.busyLeft) ∧
  (∀ (s : State) (b : Backend) (v : Word), s.Accepts → s.env = .fake b → s.cfg.cmdVcom ≠ s.cfg.cmdRegRd →
    ∃ t u, exec (.writeVcom v) s = .next t ∧ exec .readVcom t = .next u ∧ u.resp = some (.ok (.word v)))

/-! ### Image transfer -/

/-- `WIDTH_WORDS` answers W*B rounded up to the next multiple of 16, divided by 16, on naturals (D28), open or closed
(42 R150). -/
def Obligations.WidthWordsCompletes : Prop :=
  ∀ (s : State) (w : Word) (b : Nat), s.seq = .idle →
    ∃ n : Nat, exec (.widthWords w b) s = .next { s with resp := some (.ok (.nat n)) } ∧
      w.toNat * b ≤ 16 * n ∧ 16 * n < w.toNat * b + 16

/-- `SET_TMA` completes: both halves written and read back in `TMA_ORDER`, and the flag taken up exactly when the
address read back differs, where that is no configured fault (42 R151; D11, D12; 90 C1). -/
def Obligations.SetTargetCompletes : Prop :=
  ∀ (s : State) (e : Tape) (t : DWord) (d1 r1 d2 r2 : Word), s.Accepts →
    s.env = Env.script s.cfg 26 [d1, r1, d2, r2] e →
    (readBackAddr s.cfg r1 r2 = t ∨ s.cfg.tmaMismatchFault = false) →
    exec (.setTma t) s = .next
      { (s.ended e (setTmaEvents s.cfg t d1 r1 d2 r2) .nothing) with
        tmaMismatch := s.tmaMismatch || decide (readBackAddr s.cfg r1 r2 ≠ t) }

/-- A target-address mismatch with the fault configured: after both reads, the flag is set and the fault names both
addresses; in `HOST_AREA_WRITE`, the refresh operations and `CLEAR_REFRESH` it ends the whole operation, before the load
is opened (60 R223, 42 R151, R155; D12). -/
def Obligations.TargetMismatchFaults : Prop :=
  ∀ (s : State) (e : Tape) (t : DWord) (d0 d1 r1 d2 r2 : Word), s.Accepts →
    readBackAddr s.cfg r1 r2 ≠ t → s.cfg.tmaMismatchFault = true →
    let ended := fun before : List Event => Host.Outcome.next (φ := Fault) (ρ := Refusal)
      { s with
        cs := .deasserted,
        tmaMismatch := true,
        trace := s.trace ++ before ++ setTmaEvents s.cfg t d1 r1 d2 r2,
        env := .tape e,
        resp := some (.fault (.tmaMismatch t (readBackAddr s.cfg r1 r2))) }
    (s.env = Env.script s.cfg 26 [d1, r1, d2, r2] e →
      exec (.setTma t) s = ended [] ∧
      ∀ (info : LoadImageInfo) (a : AreaImageInfo) (bpp : Nat) (packed : Bool), info.src ≠ [] → info.target = t →
        exec (.hostAreaWrite info a bpp packed) s = ended []) ∧
    (s.env = Env.script s.cfg 33 [d0, 0, d1, r1, d2, r2] e →
      (∀ (src : List Word) (x y w h mode : Word) (hold : Bool), src ≠ [] →
        exec (.refresh1bpp src x y w h mode t hold) s = ended (readRegEvents s.cfg s.cfg.regDpyStatus d0 0) ∧
        exec (.refresh2bpp src x y w h t hold) s = ended (readRegEvents s.cfg s.cfg.regDpyStatus d0 0) ∧
        exec (.refresh4bpp src x y w h t hold) s = ended (readRegEvents s.cfg s.cfg.regDpyStatus d0 0) ∧
        exec (.refresh8bpp src x y w h t hold) s = ended (readRegEvents s.cfg s.cfg.regDpyStatus d0 0)) ∧
      (∀ di : Vector Word 20, s.di = some di → di[0] ≠ 0 → di[1] ≠ 0 →
        exec (.clearRefresh t) s = ended (readRegEvents s.cfg s.cfg.regDpyStatus d0 0)))

/-- Against the fake backend `SET_TMA T` leaves the halves of T in the two address registers and reads back T (92 D29,
42 R151(d)). -/
def Obligations.SetTargetReadsBackOnBackend : Prop :=
  ∀ (s : State) (b : Backend) (t : DWord), s.Accepts → s.env = .fake b → regsWf b.regs = true →
    (b.busyLeft = 0 ∨ (s.cfg.regDpyStatus ≠ s.cfg.regLisar ∧ s.cfg.regDpyStatus ≠ s.cfg.regLisar + 2)) →
    ∃ u b', exec (.setTma t) s = .next u ∧ u.resp = some (.ok .nothing) ∧ u.tmaMismatch = s.tmaMismatch ∧
      u.env = .fake b' ∧ regsRead b'.regs s.cfg.regLisar.toNat = t.extractLsb' 0 16 ∧
      regsRead b'.regs (s.cfg.regLisar + 2).toNat = t.extractLsb' 16 16

/-- The three load commands complete: header word, header word and area, no argument (42 R152 to R154). -/
def Obligations.LoadCommandsComplete : Prop :=
  ∀ (s : State) (e : Tape) (info : LoadImageInfo) (a : AreaImageInfo), s.Accepts →
    (s.env = Env.script s.cfg 4 [] e →
      exec (.ldImgStart info) s = .next (s.ended e (cmdFrame s.cfg s.cfg.cmdLdImg ++
        dataFrame s.cfg [headerWord info.endian info.pixfmt info.rot]) .nothing)) ∧
    (s.env = Env.script s.cfg 8 [] e →
      exec (.ldImgAreaStart info a) s = .next (s.ended e (cmdFrame s.cfg s.cfg.cmdLdImgArea ++
        dataFrame s.cfg [headerWord info.endian info.pixfmt info.rot, a.x, a.y, a.w, a.h]) .nothing)) ∧
    (s.env = Env.script s.cfg 2 [] e →
      exec .ldImgEnd s = .next (s.ended e (cmdFrame s.cfg s.cfg.cmdLdImgEnd) .nothing))

/-- `HOST_AREA_WRITE` completes: target, area load start, the whole buffer in one frame, load end; `bpp` and `packed`
change nothing (42 R155; D15). Its frames bracket the load (42 R156), where no register-access code is a load code. -/
def Obligations.HostAreaWriteCompletes : Prop :=
  (∀ (s : State) (e : Tape) (info : LoadImageInfo) (a : AreaImageInfo) (bpp : Nat) (packed : Bool)
    (d1 r1 d2 r2 : Word), s.Accepts → info.src ≠ [] →
    s.env = Env.script s.cfg (info.src.length + 37) [d1, r1, d2, r2] e →
    (readBackAddr s.cfg r1 r2 = info.target ∨ s.cfg.tmaMismatchFault = false) →
    exec (.hostAreaWrite info a bpp packed) s = .next
      { (s.ended e (loadEvents s.cfg info a d1 r1 d2 r2) .nothing) with
        tmaMismatch := s.tmaMismatch || decide (readBackAddr s.cfg r1 r2 ≠ info.target) }) ∧
  (∀ (c : Cfg) (info : LoadImageInfo) (a : AreaImageInfo) (d1 r1 d2 r2 : Word), info.src ≠ [] →
    (∀ code ∈ [c.cmdRegRd, c.cmdRegWr], code ∉ [c.cmdLdImg, c.cmdLdImgArea, c.cmdLdImgEnd]) →
    ∃ fs, frames (loadEvents c info a d1 r1 d2 r2) = some fs ∧ loadsBracketed c false fs = true)

/-! ### Display controller -/

/-- `WAIT_DPY_READY` ends at its first zero status, after any number of busy ones below its bound; on an idle update
engine that is exactly one poll (43 R165, its example 1, 1, 0, and (b); D7). An operation that waits at its display wait
and then reads zero goes on with the rest of it, the wait's poll counter back at 0 (step grain: log 4). -/
def Obligations.WaitDpyReadyCompletes : Prop :=
  (∀ (s : State) (e : Tape) (d : Word), s.Accepts → s.env = Env.script s.cfg 7 [d, 0] e →
    exec .waitDpyReady s = .next (s.ended e (readRegEvents s.cfg s.cfg.regDpyStatus d 0) .nothing)) ∧
  (∀ (n : Nat) (s : State) (e : Tape) (d v d' : Word), s.Accepts → v ≠ 0 →
    (∀ b : ℕ+, s.cfg.pollBound = some b → n < (b : Nat)) →
    s.env = Env.script s.cfg (7 * n + 7) ((List.replicate n [d, v]).flatten ++ [d', 0]) e →
    endsIn .waitDpyReady s (s.ended e
      ((List.replicate n (busyPoll s.cfg d v)).flatten ++ readRegEvents s.cfg s.cfg.regDpyStatus d' 0) .nothing)
      (.ok .nothing)) ∧
  (∀ (s : State) (j : Job) (defer : Bool) (rest : List Prim) (d : Word) (e : Tape),
    s.seq = .running j → j.todo = waitDpySeq s.cfg defer ++ rest → j.gatePolls = 0 →
    s.env = Env.script s.cfg 7 [d, 0] e →
    step s = .next (runPrims rest { j with dpyPolls := 0 }
      { s with
        seq := .idle, cs := .deasserted, trace := s.trace ++ readRegEvents s.cfg s.cfg.regDpyStatus d 0,
        env := .tape e }))

/-- `DPY_AREA` and `DPY_AREA_BUF` complete: five words, and seven with the address low half first (43 R166, R167,
30_encoding R88, R89). -/
def Obligations.DisplayCommandsComplete : Prop :=
  ∀ (s : State) (e : Tape) (x y w h mode : Word) (addr : DWord), s.Accepts →
    (s.env = Env.script s.cfg 8 [] e →
      exec (.dpyArea x y w h mode) s = .next (s.ended e
        (cmdFrame s.cfg s.cfg.cmdDpyArea ++ dataFrame s.cfg [x, y, w, h, mode]) .nothing)) ∧
    (s.env = Env.script s.cfg 10 [] e →
      exec (.dpyAreaBuf x y w h mode addr) s = .next (s.ended e
        (cmdFrame s.cfg s.cfg.cmdDpyBufArea ++
          dataFrame s.cfg [x, y, w, h, mode, addr.extractLsb' 0 16, addr.extractLsb' 16 16]) .nothing))

/-- `DPY_1BPP` completes: mode-select bit set, colour table written, display command, status polls until one reads zero,
a fresh read, the bit cleared; on an idle update engine that is one poll (43 R168, 70 R252, 30_encoding R94, R95; D16;
below a bound: D7). An operation that waits there and then reads zero clears the bit and ends ok (step grain: log 4). -/
def Obligations.Mono1bppCompletes : Prop :=
  (∀ (s : State) (e : Tape) (x y w h mode : Word) (addr : Option DWord) (bg fg : Byte) (d1 v d2 d3 v2 : Word),
    s.Accepts → s.env = Env.script s.cfg (displayGates addr + 39) [d1, v, d2, 0, d3, v2] e →
    exec (.dpy1bpp x y w h mode addr bg fg) s =
      .next (s.ended e (mono1bppEvents s.cfg x y w h mode addr bg fg d1 v d2 0 d3 v2) .nothing)) ∧
  (∀ (n : Nat) (s : State) (e : Tape) (x y w h mode : Word) (addr : Option DWord) (bg fg : Byte)
    (d1 v d st d2 d3 v2 : Word), s.Accepts → st ≠ 0 → (∀ b : ℕ+, s.cfg.pollBound = some b → n < (b : Nat)) →
    s.env = Env.script s.cfg (7 * n + (displayGates addr + 39))
      ([d1, v] ++ (List.replicate n [d, st]).flatten ++ [d2, 0, d3, v2]) e →
    endsIn (.dpy1bpp x y w h mode addr bg fg) s (s.ended e
      (readRegEvents s.cfg s.cfg.reg1bppCtrl d1 v ++ writeRegEvents s.cfg s.cfg.reg1bppCtrl (v ||| mask1bpp s.cfg) ++
        writeRegEvents s.cfg s.cfg.regBgvr (bgvr s.cfg bg fg) ++ displayEvents s.cfg x y w h mode addr ++
        (List.replicate n (busyPoll s.cfg d st)).flatten ++ readRegEvents s.cfg s.cfg.regDpyStatus d2 0 ++
        readRegEvents s.cfg s.cfg.reg1bppCtrl d3 v2 ++
        writeRegEvents s.cfg s.cfg.reg1bppCtrl (v2 &&& ~~~(mask1bpp s.cfg))) .nothing) (.ok .nothing)) ∧
  (∀ (s : State) (j : Job) (e : Tape) (d2 d3 v2 : Word),
    s.seq = .running j → j.todo = waitDpySeq s.cfg true ++ clear1bppSeq s.cfg → j.gatePolls = 0 → j.late = false →
    s.env = Env.script s.cfg 20 [d2, 0, d3, v2] e →
    step s = .next { s with
      seq := .idle, cs := .deasserted,
      trace := s.trace ++ readRegEvents s.cfg s.cfg.regDpyStatus d2 0 ++
        readRegEvents s.cfg s.cfg.reg1bppCtrl d3 v2 ++
        writeRegEvents s.cfg s.cfg.reg1bppCtrl (v2 &&& ~~~(mask1bpp s.cfg)),
      env := .tape e, resp := some (.ok (j.ret.value (j.got ++ [v2]))) })

/-- `ENHANCE_DRV` completes: the register read, then written with 0x0602, then read again if `EDC_READBACK`; the result
is the first value read (43 R169; D17). -/
def Obligations.EnhanceDrvCompletes : Prop :=
  ∀ (s : State) (e : Tape) (d1 old d2 new : Word), s.Accepts →
    (s.cfg.edcReadback = false → s.env = Env.script s.cfg 13 [d1, old] e →
      exec .enhanceDrv s = .next (s.ended e (readRegEvents s.cfg s.cfg.regEdc d1 old ++
        writeRegEvents s.cfg s.cfg.regEdc 0x0602) (.word old))) ∧
    (s.cfg.edcReadback = true → s.env = Env.script s.cfg 20 [d1, old, d2, new] e →
      exec .enhanceDrv s = .next (s.ended e (readRegEvents s.cfg s.cfg.regEdc d1 old ++
        writeRegEvents s.cfg s.cfg.regEdc 0x0602 ++ readRegEvents s.cfg s.cfg.regEdc d2 new) (.word old)))

/-! ### Refresh family -/

/-- `REFRESH_2BPP`, `REFRESH_4BPP`, `REFRESH_8BPP` complete: wait, load with the depth's tag, display in mode GC16 from
the default frame buffer or the target (44 R180, R182 to R184; D18). -/
def Obligations.RefreshCompletes : Prop :=
  ∀ (s : State) (e : Tape) (src : List Word) (x y w h : Word) (target : DWord) (hold : Bool)
    (d0 d1 r1 d2 r2 : Word), s.Accepts → src ≠ [] →
    s.env = Env.script s.cfg (src.length + 44 + (if hold then 8 else 10)) [d0, 0, d1, r1, d2, r2] e →
    (readBackAddr s.cfg r1 r2 = target ∨ s.cfg.tmaMismatchFault = false) →
    ∀ (i : Instr) (tag : BitVec 4),
      (i = .refresh2bpp src x y w h target hold ∧ tag = s.cfg.pixfmt.bpp2 ∨
        i = .refresh4bpp src x y w h target hold ∧ tag = s.cfg.pixfmt.bpp4 ∨
        i = .refresh8bpp src x y w h target hold ∧ tag = s.cfg.pixfmt.bpp8) →
      exec i s = .next
        { (s.ended e (readRegEvents s.cfg s.cfg.regDpyStatus d0 0 ++
            loadEvents s.cfg
              { endian := s.cfg.refreshEndian, pixfmt := tag, rot := s.cfg.refreshRot, src := src, target := target }
              { x := x, y := y, w := w, h := h } d1 r1 d2 r2 ++
            displayEvents s.cfg x y w h s.cfg.modeGc16 (if hold then none else some target)) .nothing) with
          tmaMismatch := s.tmaMismatch || decide (readBackAddr s.cfg r1 r2 ≠ target) }

/-- `REFRESH_1BPP` completes: wait, load with the carrier tag and x and w divided, `DPY_1BPP` with the undivided area
(44 R181; D18; 90 C3, C5). -/
def Obligations.Refresh1bppCompletes : Prop :=
  ∀ (s : State) (e : Tape) (src : List Word) (x y w h mode : Word) (target : DWord) (hold : Bool)
    (d0 d1 r1 d2 r2 d3 v d4 d5 v2 : Word), s.Accepts → src ≠ [] →
    s.env = Env.script s.cfg (src.length + 83 + (if hold then 8 else 10))
      [d0, 0, d1, r1, d2, r2, d3, v, d4, 0, d5, v2] e →
    (readBackAddr s.cfg r1 r2 = target ∨ s.cfg.tmaMismatchFault = false) →
    exec (.refresh1bpp src x y w h mode target hold) s = .next
      { (s.ended e (readRegEvents s.cfg s.cfg.regDpyStatus d0 0 ++
          loadEvents s.cfg
            { endian := s.cfg.refreshEndian, pixfmt := s.cfg.pixfmt1bppCarrier, rot := s.cfg.refreshRot, src := src,
              target := target }
            { x := BitVec.ofNat 16 (x.toNat / (s.cfg.xdiv1bpp : Nat)), y := y,
              w := BitVec.ofNat 16 (w.toNat / (s.cfg.xdiv1bpp : Nat)), h := h } d1 r1 d2 r2 ++
          mono1bppEvents s.cfg x y w h mode (if hold then none else some target) s.cfg.bg1bpp s.cfg.fg1bpp
            d3 v d4 0 d5 v2) .nothing) with
        tmaMismatch := s.tmaMismatch || decide (readBackAddr s.cfg r1 r2 ≠ target) }

/-- `MULTI_FRAME_1BPP` completes: wait, then `DPY_1BPP` in the fast mode, no transfer (44 R185; D19). -/
def Obligations.MultiFrameCompletes : Prop :=
  ∀ (s : State) (e : Tape) (a2 x y w h : Word) (target : DWord) (hold : Bool) (d0 d1 v d2 d3 v2 : Word), s.Accepts →
    s.a2 = some a2 →
    s.env = Env.script s.cfg (46 + (if hold then 8 else 10)) [d0, 0, d1, v, d2, 0, d3, v2] e →
    exec (.multiFrame1bpp x y w h target hold) s = .next
      (s.ended e (readRegEvents s.cfg s.cfg.regDpyStatus d0 0 ++
        mono1bppEvents s.cfg x y w h a2 (if hold then none else some target) s.cfg.bg1bpp s.cfg.fg1bpp
          d1 v d2 0 d3 v2) .nothing)

/-- `CLEAR_REFRESH` completes: a buffer of `WIDTH_WORDS(W, 4) * H` words 0xFFFF over the whole panel, then a display
in mode GC16 from the default frame buffer (44 R186; D20). -/
def Obligations.ClearRefreshCompletes : Prop :=
  ∀ (s : State) (e : Tape) (di : Vector Word 20) (target : DWord) (d0 d1 r1 d2 r2 : Word), s.Accepts →
    s.di = some di → di[0] ≠ 0 → di[1] ≠ 0 →
    s.env = Env.script s.cfg ((di[0].toNat * 4 + 15) / 16 * di[1].toNat + 52) [d0, 0, d1, r1, d2, r2] e →
    (readBackAddr s.cfg r1 r2 = target ∨ s.cfg.tmaMismatchFault = false) →
    exec (.clearRefresh target) s = .next
      { (s.ended e (readRegEvents s.cfg s.cfg.regDpyStatus d0 0 ++
          loadEvents s.cfg
            { endian := s.cfg.refreshEndian, pixfmt := s.cfg.pixfmt.bpp4, rot := s.cfg.refreshRot,
              src := List.replicate ((di[0].toNat * 4 + 15) / 16 * di[1].toNat) 0xFFFF, target := target }
            { x := 0, y := 0, w := di[0], h := di[1] } d1 r1 d2 r2 ++
          displayEvents s.cfg 0 0 di[0] di[1] s.cfg.modeGc16 none) .nothing) with
        tmaMismatch := s.tmaMismatch || decide (readBackAddr s.cfg r1 r2 ≠ target) }

/-- An operation that 30_encoding R102 expands into a plain sequence of operations does what that sequence does, in every
environment and however often its parts wait. Where the parts run one after another and each ends ok, the operation ends
ok in the state they end in, with the result its rule makes of theirs; where a part ends in a fault, the operation, unless
it is refused at once, ends in that state with that fault. -/
def Obligations.CompositeIsItsExpansion : Prop :=
  ∀ (i : Instr) (parts : List Instr) (s : State), s.Accepts → expansionOf s i = some parts →
    (∀ (t : State) (vs : List Value), runsTo parts s t vs →
      endsIn i s { t with resp := some (.ok (resultOf i vs)) } (.ok (resultOf i vs))) ∧
    (∀ (before after : List Instr) (p : Instr) (u t : State) (vs : List Value) (f : Fault),
      parts = before ++ p :: after → runsTo before s u vs → endsIn p u t (.fault f) →
      (∀ r, exec i s ≠ .next (s.refuse r)) → endsIn i s t (.fault f))

/-! ### Lifecycle -/

/-- `RESET` completes: its six events, no gate, and the reset pin high; nothing else of the state changes (45 R195;
D31). -/
def Obligations.ResetCompletes : Prop :=
  ∀ s : State, s.Accepts →
    exec .reset s = .next { s with
      rst := .driven .high,
      trace := s.trace ++ [.rst .high, .sleep 200000, .rst .low, .sleep 10000, .rst .high, .sleep 200000],
      resp := some (.ok .nothing) }

/-- `SYS_RUN`, `STANDBY`, `SLEEP` complete: one command frame each, no mode kept (45 R196 to R198; D31). -/
def Obligations.ModeCommandsComplete : Prop :=
  ∀ (s : State) (e : Tape), s.Accepts → s.env = Env.script s.cfg 2 [] e →
    exec .sysRun s = .next (s.ended e (cmdFrame s.cfg s.cfg.cmdSysRun) .nothing) ∧
    exec .standby s = .next (s.ended e (cmdFrame s.cfg s.cfg.cmdStandby) .nothing) ∧
    exec .sleep s = .next (s.ended e (cmdFrame s.cfg s.cfg.cmdSleep) .nothing)

/-- `GET_SYS_INFO` completes: 20 words after one dummy, returned and not stored (45 R199; D34; 90 C8). -/
def Obligations.SysInfoCompletes : Prop :=
  ∀ (s : State) (e : Tape) (d : Word) (ws : List Word), s.Accepts → ws.length = 20 →
    s.env = Env.script s.cfg 24 (d :: ws) e →
    exec .getSysInfo s =
      .next (s.ended e (cmdFrame s.cfg s.cfg.cmdGetDevInfo ++ readFrame s.cfg d ws) (.words ws))

/-- `READ_VCOM` and `WRITE_VCOM` complete: command, subcommand 0 or 1, then a read or the value (45 R203, R204; D27). -/
def Obligations.VcomCompletes : Prop :=
  ∀ (s : State) (e : Tape) (d v : Word), s.Accepts →
    (s.env = Env.script s.cfg 7 [d, v] e →
      exec .readVcom s = .next (s.ended e (cmdFrame s.cfg s.cfg.cmdVcom ++ dataFrame s.cfg [0] ++
        readFrame s.cfg d [v]) (.word v))) ∧
    (s.env = Env.script s.cfg 6 [] e →
      exec (.writeVcom v) s = .next (s.ended e (cmdFrame s.cfg s.cfg.cmdVcom ++ dataFrame s.cfg [1] ++
        dataFrame s.cfg [v]) .nothing))

/-- `INITIALIZE` completes: open, reset, system-run, device info stored and the fast mode resolved, packed mode
enabled, the wait, the VCOM read, and the VCOM written only if it differs (45 R205, 70 R247, R261; D21, D22). When the
transport is claimed, chip-select is deasserted and the reset pin undriven until the first `RST` event (10_state R25;
D26). -/
def Obligations.InitializeCompletes : Prop :=
  (∀ (s : State) (e : Tape) (target d1 d2 d3 cur : Word) (di : Vector Word 20), s.seq = .idle → s.isOpen = false →
    s.env = Env.script s.cfg (39 + initWaitGates s.cfg + (if cur = target then 0 else 6))
      (d1 :: di.toList ++ initWaitWords s.cfg d2 ++ [d3, cur]) { e with opens := true :: e.opens } →
    exec (.initializeDevice target) s = .next
      { (s.ended e (.opened true :: initEvents s.cfg target d1 di.toList d2 d3 cur) (.words di.toList)) with
        isOpen := true, di := some di, a2 := some (fastMode s.cfg di), rst := .driven .high }) ∧
  (∀ (s : State) (j : Job), (s.env.opens s.trace).1 = true →
    perform .claim j s = .go j { s with
      isOpen := true, cs := .deasserted, rst := .undriven, trace := s.trace ++ [.opened true],
      env := (s.env.opens s.trace).2.observe s.cfg (.opened true) })

/-- A failed open, whoever answers it: the fault, one event, and nothing else changes (60 R222). -/
def Obligations.InitializeOpenFails : Prop :=
  ∀ (s : State) (target : Word), s.seq = .idle → s.isOpen = false → (s.env.opens s.trace).1 = false →
    exec (.initializeDevice target) s = .next { s with
      trace := s.trace ++ [.opened false], env := (s.env.opens s.trace).2,
      resp := some (.fault .transportOpenFailed) }

/-- A fault of `INITIALIZE` leaves the session closed: after `OPEN(true)` its last event is `CLOSE`, whether the fault
comes in its first run or in a step that goes on after a wait (45 R205, R207; the soundness of a waiting operation is
kept by every step: `StepKeepsDataWhole`). -/
def Obligations.InitializeFaultReleases : Prop :=
  (∀ (s t : State) (target : Word) (f : Fault), s.seq = .idle → s.isOpen = false →
    exec (.initializeDevice target) s = .next t → t.resp = some (.fault f) →
    t.seq = .idle ∧ t.isOpen = false ∧
      (t.trace = s.trace ++ [.opened false] ∨ ∃ mid, t.trace = s.trace ++ .opened true :: mid ++ [.closed])) ∧
  (∀ (s t : State) (j : Job) (target : Word) (f : Fault), s.JobSound → s.seq = .running j →
    j.op = .initializeDevice target → step s = .next t → t.resp = some (.fault f) →
    t.seq = .idle ∧ t.isOpen = false ∧ ∃ mid, t.trace = s.trace ++ mid ++ [.closed])

/-- The fast mode: 4 where the LUT version string is "M641", else 6 (45 R202); with `HIGH_FIRST` that is the match on
words 12, 13 and the high byte of 14, since the string is read up to its first NUL in `VERSION_CHAR_ORDER`, which is the
spec's own choice (R201; D23); `INITIALIZE` stores it with the block it read (R205, 10_state R24), and once written it is
what the host reads as register 20 (00_scope R12, 10_state R22). -/
def Obligations.FastModeResolution : Prop :=
  ∀ (c : Cfg) (di : Vector Word 20),
    (versionString c.versionCharOrder (lutWords di) = [0x4D, 0x36, 0x34, 0x31] → fastMode c di = 4) ∧
    (versionString c.versionCharOrder (lutWords di) ≠ [0x4D, 0x36, 0x34, 0x31] → fastMode c di = 6) ∧
    (c.versionCharOrder = .highFirst →
      (fastMode c di = 4 ↔ di[12] = 0x4D36 ∧ di[13] = 0x3431 ∧ di[14].extractLsb' 8 8 = 0)) ∧
    (∀ (j : Job) (s : State), s.cfg = c → j.got = di.toList →
      perform .storeInfo j s = .go j { s with di := some di, a2 := some (fastMode c di) }) ∧
    (∀ (s : State) (v : Word), s.a2 = some v → s.sessionReg 20 = .ok (.word v))

/-- Decoding the device-info block: every field of the snapshot is read at its position, the version strings are words 4
to 11 and 12 to 19, and the target address joins words 3 and 2 (45 R200). -/
def Obligations.DeviceInfoDecode : Prop :=
  (∀ (s : State) (di : Vector Word 20), s.di = some di →
    (∀ i : Fin 20, s.sessionReg i.castSucc = .ok (.word di[i])) ∧
    s.targetAddress = .ok (.dword ((di[3].zeroExtend 32 <<< 16) ||| di[2].zeroExtend 32))) ∧
  (∀ di : Vector Word 20, (fwWords di).length = 8 ∧ (lutWords di).length = 8 ∧
    ∀ k : Fin 8, (fwWords di)[k]? = some di[4 + (k : Nat)] ∧ (lutWords di)[k]? = some di[12 + (k : Nat)])

/-- `SHUTDOWN` completes: one event, the session closed, the pins undriven, the session registers and the flag kept
(45 R206, 10_state R44; D24). -/
def Obligations.ShutdownCompletes : Prop :=
  ∀ s : State, s.Accepts →
    exec .shutdown s = .next { s with
      isOpen := false, cs := .undriven, rst := .undriven, trace := s.trace ++ [.closed], resp := some (.ok .nothing) }

/-! ### Wire rows -/

/-- The wire rows put the frame of their format on the wire, and the header word the frame that carries it (30_encoding
R83, R86; log 7 is the model's choice to run them). -/
def Obligations.WireRowsComplete : Prop :=
  ∀ (s : State) (e : Tape) (v d : Word) (ws : List Word) (en : BitVec 1) (p q : BitVec 4), s.Accepts →
    (s.env = Env.script s.cfg 2 [] e →
      exec (.frameFc v) s = .next (s.ended e (cmdFrame s.cfg v) .nothing) ∧
      exec (.frameFw1 v) s = .next (s.ended e (dataFrame s.cfg [v]) .nothing) ∧
      exec (.wordLdHeader en p q) s = .next (s.ended e (dataFrame s.cfg [headerWord en p q]) .nothing)) ∧
    (s.env = Env.script s.cfg (ws.length + 1) [] e → ws ≠ [] →
      exec (.frameFwn ws) s = .next (s.ended e (dataFrame s.cfg ws) .nothing)) ∧
    (s.env = Env.script s.cfg 3 [d, v] e →
      exec .frameFr1 s = .next (s.ended e (readFrame s.cfg d [v]) (.word v))) ∧
    (s.env = Env.script s.cfg (ws.length + 2) (d :: ws) e → ws ≠ [] →
      exec (.frameFrn ws.length) s = .next (s.ended e (readFrame s.cfg d ws) (.words ws)))
end

