-- ==== Sys2Proof/Laws/State.lean ====
section
/-!
SUPPORT. One lemma per field per named update of State, so that no later proof unfolds a record update.
-/

namespace Sys2Proof.Machine

open Sys2Proof

/-! ### emit -/

@[simp] theorem emit_cfg (s : State) (e : Event) : (s.emit e).cfg = s.cfg := rfl
@[simp] theorem emit_isOpen (s : State) (e : Event) : (s.emit e).isOpen = s.isOpen := rfl
@[simp] theorem emit_di (s : State) (e : Event) : (s.emit e).di = s.di := rfl
@[simp] theorem emit_a2 (s : State) (e : Event) : (s.emit e).a2 = s.a2 := rfl
@[simp] theorem emit_cs (s : State) (e : Event) : (s.emit e).cs = s.cs := rfl
@[simp] theorem emit_rst (s : State) (e : Event) : (s.emit e).rst = s.rst := rfl
@[simp] theorem emit_tmaMismatch (s : State) (e : Event) : (s.emit e).tmaMismatch = s.tmaMismatch := rfl
@[simp] theorem emit_seq (s : State) (e : Event) : (s.emit e).seq = s.seq := rfl
@[simp] theorem emit_trace (s : State) (e : Event) : (s.emit e).trace = s.trace ++ [e] := rfl
@[simp] theorem emit_port (s : State) (e : Event) : (s.emit e).port = s.port := rfl
@[simp] theorem emit_resp (s : State) (e : Event) : (s.emit e).resp = s.resp := rfl
@[simp] theorem emit_env (s : State) (e : Event) : (s.emit e).env = s.env.observe s.cfg e := rfl

/-! ### setCs -/

@[simp] theorem setCs_cfg (s : State) (on : Bool) : (s.setCs on).cfg = s.cfg := rfl
@[simp] theorem setCs_isOpen (s : State) (on : Bool) : (s.setCs on).isOpen = s.isOpen := rfl
@[simp] theorem setCs_di (s : State) (on : Bool) : (s.setCs on).di = s.di := rfl
@[simp] theorem setCs_a2 (s : State) (on : Bool) : (s.setCs on).a2 = s.a2 := rfl
@[simp] theorem setCs_cs (s : State) (on : Bool) : (s.setCs on).cs = if on then .asserted else .deasserted := rfl
@[simp] theorem setCs_rst (s : State) (on : Bool) : (s.setCs on).rst = s.rst := rfl
@[simp] theorem setCs_tmaMismatch (s : State) (on : Bool) : (s.setCs on).tmaMismatch = s.tmaMismatch := rfl
@[simp] theorem setCs_seq (s : State) (on : Bool) : (s.setCs on).seq = s.seq := rfl
@[simp] theorem setCs_trace (s : State) (on : Bool) : (s.setCs on).trace = s.trace ++ [.cs on] := rfl
@[simp] theorem setCs_port (s : State) (on : Bool) : (s.setCs on).port = s.port := rfl
@[simp] theorem setCs_resp (s : State) (on : Bool) : (s.setCs on).resp = s.resp := rfl
@[simp] theorem setCs_env (s : State) (on : Bool) : (s.setCs on).env = s.env.observe s.cfg (.cs on) := rfl

/-! ### setRst -/

@[simp] theorem setRst_cfg (s : State) (l : Level) : (s.setRst l).cfg = s.cfg := rfl
@[simp] theorem setRst_isOpen (s : State) (l : Level) : (s.setRst l).isOpen = s.isOpen := rfl
@[simp] theorem setRst_di (s : State) (l : Level) : (s.setRst l).di = s.di := rfl
@[simp] theorem setRst_a2 (s : State) (l : Level) : (s.setRst l).a2 = s.a2 := rfl
@[simp] theorem setRst_cs (s : State) (l : Level) : (s.setRst l).cs = s.cs := rfl
@[simp] theorem setRst_rst (s : State) (l : Level) : (s.setRst l).rst = .driven l := rfl
@[simp] theorem setRst_tmaMismatch (s : State) (l : Level) : (s.setRst l).tmaMismatch = s.tmaMismatch := rfl
@[simp] theorem setRst_seq (s : State) (l : Level) : (s.setRst l).seq = s.seq := rfl
@[simp] theorem setRst_trace (s : State) (l : Level) : (s.setRst l).trace = s.trace ++ [.rst l] := rfl
@[simp] theorem setRst_port (s : State) (l : Level) : (s.setRst l).port = s.port := rfl
@[simp] theorem setRst_resp (s : State) (l : Level) : (s.setRst l).resp = s.resp := rfl
@[simp] theorem setRst_env (s : State) (l : Level) : (s.setRst l).env = s.env.observe s.cfg (.rst l) := rfl

/-! ### noteMismatch -/

@[simp] theorem noteMismatch_cfg (s : State) (d : Bool) : (s.noteMismatch d).cfg = s.cfg := rfl
@[simp] theorem noteMismatch_isOpen (s : State) (d : Bool) : (s.noteMismatch d).isOpen = s.isOpen := rfl
@[simp] theorem noteMismatch_di (s : State) (d : Bool) : (s.noteMismatch d).di = s.di := rfl
@[simp] theorem noteMismatch_a2 (s : State) (d : Bool) : (s.noteMismatch d).a2 = s.a2 := rfl
@[simp] theorem noteMismatch_cs (s : State) (d : Bool) : (s.noteMismatch d).cs = s.cs := rfl
@[simp] theorem noteMismatch_rst (s : State) (d : Bool) : (s.noteMismatch d).rst = s.rst := rfl
@[simp] theorem noteMismatch_tmaMismatch (s : State) (d : Bool) : (s.noteMismatch d).tmaMismatch = (s.tmaMismatch || d) := rfl
@[simp] theorem noteMismatch_seq (s : State) (d : Bool) : (s.noteMismatch d).seq = s.seq := rfl
@[simp] theorem noteMismatch_trace (s : State) (d : Bool) : (s.noteMismatch d).trace = s.trace := rfl
@[simp] theorem noteMismatch_port (s : State) (d : Bool) : (s.noteMismatch d).port = s.port := rfl
@[simp] theorem noteMismatch_resp (s : State) (d : Bool) : (s.noteMismatch d).resp = s.resp := rfl
@[simp] theorem noteMismatch_env (s : State) (d : Bool) : (s.noteMismatch d).env = s.env := rfl

/-! ### refuse -/

@[simp] theorem refuse_cfg (s : State) (r : Refusal) : (s.refuse r).cfg = s.cfg := rfl
@[simp] theorem refuse_isOpen (s : State) (r : Refusal) : (s.refuse r).isOpen = s.isOpen := rfl
@[simp] theorem refuse_di (s : State) (r : Refusal) : (s.refuse r).di = s.di := rfl
@[simp] theorem refuse_a2 (s : State) (r : Refusal) : (s.refuse r).a2 = s.a2 := rfl
@[simp] theorem refuse_cs (s : State) (r : Refusal) : (s.refuse r).cs = s.cs := rfl
@[simp] theorem refuse_rst (s : State) (r : Refusal) : (s.refuse r).rst = s.rst := rfl
@[simp] theorem refuse_tmaMismatch (s : State) (r : Refusal) : (s.refuse r).tmaMismatch = s.tmaMismatch := rfl
@[simp] theorem refuse_seq (s : State) (r : Refusal) : (s.refuse r).seq = s.seq := rfl
@[simp] theorem refuse_trace (s : State) (r : Refusal) : (s.refuse r).trace = s.trace := rfl
@[simp] theorem refuse_port (s : State) (r : Refusal) : (s.refuse r).port = s.port := rfl
@[simp] theorem refuse_resp (s : State) (r : Refusal) : (s.refuse r).resp = some (.refused r) := rfl
@[simp] theorem refuse_env (s : State) (r : Refusal) : (s.refuse r).env = s.env := rfl

/-! ### closeAfterFault -/

@[simp] theorem closeAfterFault_cfg (s : State) : (s.closeAfterFault).cfg = s.cfg := rfl
@[simp] theorem closeAfterFault_isOpen (s : State) : (s.closeAfterFault).isOpen = false := rfl
@[simp] theorem closeAfterFault_di (s : State) : (s.closeAfterFault).di = s.di := rfl
@[simp] theorem closeAfterFault_a2 (s : State) : (s.closeAfterFault).a2 = s.a2 := rfl
@[simp] theorem closeAfterFault_cs (s : State) : (s.closeAfterFault).cs = s.cs := rfl
@[simp] theorem closeAfterFault_rst (s : State) : (s.closeAfterFault).rst = s.rst := rfl
@[simp] theorem closeAfterFault_tmaMismatch (s : State) : (s.closeAfterFault).tmaMismatch = s.tmaMismatch := rfl
@[simp] theorem closeAfterFault_seq (s : State) : (s.closeAfterFault).seq = s.seq := rfl
@[simp] theorem closeAfterFault_trace (s : State) : (s.closeAfterFault).trace = s.trace ++ [.closed] := rfl
@[simp] theorem closeAfterFault_port (s : State) : (s.closeAfterFault).port = s.port := rfl
@[simp] theorem closeAfterFault_resp (s : State) : (s.closeAfterFault).resp = s.resp := rfl
@[simp] theorem closeAfterFault_env (s : State) : (s.closeAfterFault).env = s.env.observe s.cfg .closed := rfl

/-! ### releaseTransport -/

@[simp] theorem releaseTransport_cfg (s : State) : (s.releaseTransport).cfg = s.cfg := rfl
@[simp] theorem releaseTransport_isOpen (s : State) : (s.releaseTransport).isOpen = false := rfl
@[simp] theorem releaseTransport_di (s : State) : (s.releaseTransport).di = s.di := rfl
@[simp] theorem releaseTransport_a2 (s : State) : (s.releaseTransport).a2 = s.a2 := rfl
@[simp] theorem releaseTransport_cs (s : State) : (s.releaseTransport).cs = .undriven := rfl
@[simp] theorem releaseTransport_rst (s : State) : (s.releaseTransport).rst = .undriven := rfl
@[simp] theorem releaseTransport_tmaMismatch (s : State) : (s.releaseTransport).tmaMismatch = s.tmaMismatch := rfl
@[simp] theorem releaseTransport_seq (s : State) : (s.releaseTransport).seq = s.seq := rfl
@[simp] theorem releaseTransport_trace (s : State) : (s.releaseTransport).trace = s.trace ++ [.closed] := rfl
@[simp] theorem releaseTransport_port (s : State) : (s.releaseTransport).port = s.port := rfl
@[simp] theorem releaseTransport_resp (s : State) : (s.releaseTransport).resp = s.resp := rfl
@[simp] theorem releaseTransport_env (s : State) : (s.releaseTransport).env = s.env.observe s.cfg .closed := rfl

/-! ### placeNext -/

@[simp] theorem placeNext_cfg (s : State) (item : PortItem) : (placeNext s item).cfg = s.cfg := rfl
@[simp] theorem placeNext_isOpen (s : State) (item : PortItem) : (placeNext s item).isOpen = s.isOpen := rfl
@[simp] theorem placeNext_di (s : State) (item : PortItem) : (placeNext s item).di = s.di := rfl
@[simp] theorem placeNext_a2 (s : State) (item : PortItem) : (placeNext s item).a2 = s.a2 := rfl
@[simp] theorem placeNext_cs (s : State) (item : PortItem) : (placeNext s item).cs = s.cs := rfl
@[simp] theorem placeNext_rst (s : State) (item : PortItem) : (placeNext s item).rst = s.rst := rfl
@[simp] theorem placeNext_tmaMismatch (s : State) (item : PortItem) : (placeNext s item).tmaMismatch = s.tmaMismatch := rfl
@[simp] theorem placeNext_seq (s : State) (item : PortItem) : (placeNext s item).seq = .idle := rfl
@[simp] theorem placeNext_trace (s : State) (item : PortItem) : (placeNext s item).trace = s.trace := rfl
@[simp] theorem placeNext_port (s : State) (item : PortItem) : (placeNext s item).port = item :: s.port := rfl
@[simp] theorem placeNext_resp (s : State) (item : PortItem) : (placeNext s item).resp = s.resp := rfl
@[simp] theorem placeNext_env (s : State) (item : PortItem) : (placeNext s item).env = s.env := rfl

/-! ### finish -/

@[simp] theorem finish_cfg (s : State) (j : Job) : (finish j s).cfg = s.cfg := rfl
@[simp] theorem finish_isOpen (s : State) (j : Job) : (finish j s).isOpen = s.isOpen := rfl
@[simp] theorem finish_di (s : State) (j : Job) : (finish j s).di = s.di := rfl
@[simp] theorem finish_a2 (s : State) (j : Job) : (finish j s).a2 = s.a2 := rfl
@[simp] theorem finish_cs (s : State) (j : Job) : (finish j s).cs = s.cs := rfl
@[simp] theorem finish_rst (s : State) (j : Job) : (finish j s).rst = s.rst := rfl
@[simp] theorem finish_tmaMismatch (s : State) (j : Job) : (finish j s).tmaMismatch = s.tmaMismatch := rfl
@[simp] theorem finish_seq (s : State) (j : Job) : (finish j s).seq = .idle := rfl
@[simp] theorem finish_trace (s : State) (j : Job) : (finish j s).trace = s.trace := rfl
@[simp] theorem finish_port (s : State) (j : Job) : (finish j s).port = s.port := rfl
@[simp] theorem finish_resp (s : State) (j : Job) : (finish j s).resp = some (.ok (j.ret.value j.got)) := rfl
@[simp] theorem finish_env (s : State) (j : Job) : (finish j s).env = s.env := rfl

/-! ### txWord -/

@[simp] theorem txWord_cfg (s : State) (w : Word) : (s.txWord w).cfg = s.cfg := rfl
@[simp] theorem txWord_isOpen (s : State) (w : Word) : (s.txWord w).isOpen = s.isOpen := rfl
@[simp] theorem txWord_di (s : State) (w : Word) : (s.txWord w).di = s.di := rfl
@[simp] theorem txWord_a2 (s : State) (w : Word) : (s.txWord w).a2 = s.a2 := rfl
@[simp] theorem txWord_cs (s : State) (w : Word) : (s.txWord w).cs = s.cs := rfl
@[simp] theorem txWord_rst (s : State) (w : Word) : (s.txWord w).rst = s.rst := rfl
@[simp] theorem txWord_tmaMismatch (s : State) (w : Word) : (s.txWord w).tmaMismatch = s.tmaMismatch := rfl
@[simp] theorem txWord_seq (s : State) (w : Word) : (s.txWord w).seq = s.seq := rfl
@[simp] theorem txWord_port (s : State) (w : Word) : (s.txWord w).port = s.port := rfl
@[simp] theorem txWord_resp (s : State) (w : Word) : (s.txWord w).resp = s.resp := rfl
@[simp] theorem txWord_trace (s : State) (w : Word) :
    (s.txWord w).trace = s.trace ++ [.tx (hiByte w), .tx (loByte w)] := by
  simp [State.txWord]
@[simp] theorem txWord_env (s : State) (w : Word) :
    (s.txWord w).env = (s.env.observe s.cfg (.tx (hiByte w))).observe s.cfg (.tx (loByte w)) := rfl

/-! ### rxByte -/

@[simp] theorem rxByte_cfg (s : State) : s.rxByte.2.cfg = s.cfg := rfl
@[simp] theorem rxByte_isOpen (s : State) : s.rxByte.2.isOpen = s.isOpen := rfl
@[simp] theorem rxByte_di (s : State) : s.rxByte.2.di = s.di := rfl
@[simp] theorem rxByte_a2 (s : State) : s.rxByte.2.a2 = s.a2 := rfl
@[simp] theorem rxByte_cs (s : State) : s.rxByte.2.cs = s.cs := rfl
@[simp] theorem rxByte_rst (s : State) : s.rxByte.2.rst = s.rst := rfl
@[simp] theorem rxByte_tmaMismatch (s : State) : s.rxByte.2.tmaMismatch = s.tmaMismatch := rfl
@[simp] theorem rxByte_seq (s : State) : s.rxByte.2.seq = s.seq := rfl
@[simp] theorem rxByte_port (s : State) : s.rxByte.2.port = s.port := rfl
@[simp] theorem rxByte_resp (s : State) : s.rxByte.2.resp = s.resp := rfl
@[simp] theorem rxByte_trace (s : State) : s.rxByte.2.trace = s.trace ++ [.rx s.rxByte.1] := rfl
theorem rxByte_fst (s : State) : s.rxByte.1 = (s.env.byte s.cfg s.trace).1 := rfl
@[simp] theorem rxByte_env (s : State) :
    s.rxByte.2.env = (s.env.byte s.cfg s.trace).2.observe s.cfg (.rx s.rxByte.1) := rfl

/-! ### sample -/

@[simp] theorem sample_cfg (s : State) : s.sample.2.cfg = s.cfg := rfl
@[simp] theorem sample_isOpen (s : State) : s.sample.2.isOpen = s.isOpen := rfl
@[simp] theorem sample_di (s : State) : s.sample.2.di = s.di := rfl
@[simp] theorem sample_a2 (s : State) : s.sample.2.a2 = s.a2 := rfl
@[simp] theorem sample_cs (s : State) : s.sample.2.cs = s.cs := rfl
@[simp] theorem sample_rst (s : State) : s.sample.2.rst = s.rst := rfl
@[simp] theorem sample_tmaMismatch (s : State) : s.sample.2.tmaMismatch = s.tmaMismatch := rfl
@[simp] theorem sample_seq (s : State) : s.sample.2.seq = s.seq := rfl
@[simp] theorem sample_port (s : State) : s.sample.2.port = s.port := rfl
@[simp] theorem sample_resp (s : State) : s.sample.2.resp = s.resp := rfl
@[simp] theorem sample_trace (s : State) : s.sample.2.trace = s.trace ++ [.rdy s.sample.1] := rfl
theorem sample_fst (s : State) : s.sample.1 = (s.env.level s.cfg s.trace).1 := rfl
@[simp] theorem sample_env (s : State) :
    s.sample.2.env = (s.env.level s.cfg s.trace).2.observe s.cfg (.rdy s.sample.1) := rfl

/-! ### askOpen -/

@[simp] theorem askOpen_cfg (s : State) : s.askOpen.2.cfg = s.cfg := rfl
@[simp] theorem askOpen_isOpen (s : State) : s.askOpen.2.isOpen = s.isOpen := rfl
@[simp] theorem askOpen_di (s : State) : s.askOpen.2.di = s.di := rfl
@[simp] theorem askOpen_a2 (s : State) : s.askOpen.2.a2 = s.a2 := rfl
@[simp] theorem askOpen_cs (s : State) : s.askOpen.2.cs = s.cs := rfl
@[simp] theorem askOpen_rst (s : State) : s.askOpen.2.rst = s.rst := rfl
@[simp] theorem askOpen_tmaMismatch (s : State) : s.askOpen.2.tmaMismatch = s.tmaMismatch := rfl
@[simp] theorem askOpen_seq (s : State) : s.askOpen.2.seq = s.seq := rfl
@[simp] theorem askOpen_port (s : State) : s.askOpen.2.port = s.port := rfl
@[simp] theorem askOpen_resp (s : State) : s.askOpen.2.resp = s.resp := rfl
@[simp] theorem askOpen_trace (s : State) : s.askOpen.2.trace = s.trace ++ [.opened s.askOpen.1] := rfl
theorem askOpen_fst (s : State) : s.askOpen.1 = (s.env.opens s.trace).1 := rfl
@[simp] theorem askOpen_env (s : State) :
    s.askOpen.2.env = (s.env.opens s.trace).2.observe s.cfg (.opened s.askOpen.1) := rfl

/-! ### rxWord -/

@[simp] theorem rxWord_cfg (s : State) : s.rxWord.2.cfg = s.cfg := rfl
@[simp] theorem rxWord_isOpen (s : State) : s.rxWord.2.isOpen = s.isOpen := rfl
@[simp] theorem rxWord_di (s : State) : s.rxWord.2.di = s.di := rfl
@[simp] theorem rxWord_a2 (s : State) : s.rxWord.2.a2 = s.a2 := rfl
@[simp] theorem rxWord_cs (s : State) : s.rxWord.2.cs = s.cs := rfl
@[simp] theorem rxWord_rst (s : State) : s.rxWord.2.rst = s.rst := rfl
@[simp] theorem rxWord_tmaMismatch (s : State) : s.rxWord.2.tmaMismatch = s.tmaMismatch := rfl
@[simp] theorem rxWord_seq (s : State) : s.rxWord.2.seq = s.seq := rfl
@[simp] theorem rxWord_port (s : State) : s.rxWord.2.port = s.port := rfl
@[simp] theorem rxWord_resp (s : State) : s.rxWord.2.resp = s.resp := rfl
@[simp] theorem rxWord_trace (s : State) :
    s.rxWord.2.trace = s.trace ++ [.rx s.rxByte.1, .rx s.rxByte.2.rxByte.1] := by
  simp [State.rxWord]

/-! ### backOff and storeDeviceInfo -/

@[simp] theorem backOff_cfg (s : State) : s.backOff.cfg = s.cfg := by unfold State.backOff; split <;> rfl
@[simp] theorem backOff_isOpen (s : State) : s.backOff.isOpen = s.isOpen := by unfold State.backOff; split <;> rfl
@[simp] theorem backOff_di (s : State) : s.backOff.di = s.di := by unfold State.backOff; split <;> rfl
@[simp] theorem backOff_a2 (s : State) : s.backOff.a2 = s.a2 := by unfold State.backOff; split <;> rfl
@[simp] theorem backOff_cs (s : State) : s.backOff.cs = s.cs := by unfold State.backOff; split <;> rfl
@[simp] theorem backOff_rst (s : State) : s.backOff.rst = s.rst := by unfold State.backOff; split <;> rfl
@[simp] theorem backOff_tmaMismatch (s : State) : s.backOff.tmaMismatch = s.tmaMismatch := by unfold State.backOff; split <;> rfl
@[simp] theorem backOff_seq (s : State) : s.backOff.seq = s.seq := by unfold State.backOff; split <;> rfl
@[simp] theorem backOff_port (s : State) : s.backOff.port = s.port := by unfold State.backOff; split <;> rfl
@[simp] theorem backOff_resp (s : State) : s.backOff.resp = s.resp := by unfold State.backOff; split <;> rfl
theorem backOff_trace (s : State) :
    s.backOff.trace = s.trace ++ (s.cfg.pollSleep.map Event.sleep).toList := by
  unfold State.backOff; split <;> simp [*]

@[simp] theorem storeDeviceInfo_cfg (j : Job) (s : State) : (storeDeviceInfo j s).cfg = s.cfg := by
  unfold storeDeviceInfo; split <;> rfl
@[simp] theorem storeDeviceInfo_isOpen (j : Job) (s : State) : (storeDeviceInfo j s).isOpen = s.isOpen := by
  unfold storeDeviceInfo; split <;> rfl
@[simp] theorem storeDeviceInfo_cs (j : Job) (s : State) : (storeDeviceInfo j s).cs = s.cs := by
  unfold storeDeviceInfo; split <;> rfl
@[simp] theorem storeDeviceInfo_rst (j : Job) (s : State) : (storeDeviceInfo j s).rst = s.rst := by
  unfold storeDeviceInfo; split <;> rfl
@[simp] theorem storeDeviceInfo_tmaMismatch (j : Job) (s : State) : (storeDeviceInfo j s).tmaMismatch = s.tmaMismatch := by
  unfold storeDeviceInfo; split <;> rfl
@[simp] theorem storeDeviceInfo_seq (j : Job) (s : State) : (storeDeviceInfo j s).seq = s.seq := by
  unfold storeDeviceInfo; split <;> rfl
@[simp] theorem storeDeviceInfo_trace (j : Job) (s : State) : (storeDeviceInfo j s).trace = s.trace := by
  unfold storeDeviceInfo; split <;> rfl
@[simp] theorem storeDeviceInfo_port (j : Job) (s : State) : (storeDeviceInfo j s).port = s.port := by
  unfold storeDeviceInfo; split <;> rfl
@[simp] theorem storeDeviceInfo_resp (j : Job) (s : State) : (storeDeviceInfo j s).resp = s.resp := by
  unfold storeDeviceInfo; split <;> rfl
@[simp] theorem storeDeviceInfo_env (j : Job) (s : State) : (storeDeviceInfo j s).env = s.env := by
  unfold storeDeviceInfo; split <;> rfl

/-! ### raiseFault -/

@[simp] theorem raiseFault_cfg (f : Fault) (j : Job) (s : State) : (raiseFault f j s).cfg = s.cfg := by
  unfold raiseFault; dsimp only; split <;> rfl
@[simp] theorem raiseFault_di (f : Fault) (j : Job) (s : State) : (raiseFault f j s).di = s.di := by
  unfold raiseFault; dsimp only; split <;> rfl
@[simp] theorem raiseFault_a2 (f : Fault) (j : Job) (s : State) : (raiseFault f j s).a2 = s.a2 := by
  unfold raiseFault; dsimp only; split <;> rfl
@[simp] theorem raiseFault_cs (f : Fault) (j : Job) (s : State) : (raiseFault f j s).cs = s.cs := by
  unfold raiseFault; dsimp only; split <;> rfl
@[simp] theorem raiseFault_rst (f : Fault) (j : Job) (s : State) : (raiseFault f j s).rst = s.rst := by
  unfold raiseFault; dsimp only; split <;> rfl
@[simp] theorem raiseFault_tmaMismatch (f : Fault) (j : Job) (s : State) : (raiseFault f j s).tmaMismatch = s.tmaMismatch := by
  unfold raiseFault; dsimp only; split <;> rfl
@[simp] theorem raiseFault_port (f : Fault) (j : Job) (s : State) : (raiseFault f j s).port = s.port := by
  unfold raiseFault; dsimp only; split <;> rfl
@[simp] theorem raiseFault_seq (f : Fault) (j : Job) (s : State) : (raiseFault f j s).seq = .idle := rfl
@[simp] theorem raiseFault_resp (f : Fault) (j : Job) (s : State) : (raiseFault f j s).resp = some (.fault f) := rfl

/-- Taking a fault either leaves the session as it is or, in `INITIALIZE`, closes it with the event `CLOSE`. -/
theorem raiseFault_session (f : Fault) (j : Job) (s : State) :
    ((raiseFault f j s).isOpen = s.isOpen ∧ (raiseFault f j s).trace = s.trace ∧ (raiseFault f j s).env = s.env ∧
      ¬(j.closeOnFault = true ∧ s.isOpen = true)) ∨
    ((raiseFault f j s).isOpen = false ∧ (raiseFault f j s).trace = s.trace ++ [.closed] ∧
      (raiseFault f j s).env = s.env.observe s.cfg .closed ∧ j.closeOnFault = true ∧ s.isOpen = true) := by
  unfold raiseFault
  by_cases h : (j.closeOnFault && s.isOpen) = true
  · right; simp_all
  · left
    dsimp only
    rw [if_neg h]
    simp_all

end Sys2Proof.Machine
end

