-- ==== Sys2Proof/Laws/Run.lean ====
section
/-!
SUPPORT. What performing a primitive and running a sequence can do, said once: what they keep, and that histories only
grow.
-/

namespace Sys2Proof.Machine

open Sys2Proof

/-! ### Flows -/

/-- The job a flow carries. -/
def Flow.job : Flow → Job
  | .go j _ => j
  | .hold _ j _ => j
  | .done j _ => j
  | .raise _ j _ => j

@[simp] theorem runPrims_nil (j : Job) (s : State) : runPrims [] j s = finish j s := rfl

theorem runPrims_cons (p : Prim) (ps : List Prim) (j : Job) (s : State) :
    runPrims (p :: ps) j s =
      match perform p j s with
      | .go j' s' => runPrims ps j' s'
      | .hold again j' s' => { s' with seq := .running { j' with todo := again ++ ps } }
      | .done j' s' => finish j' s'
      | .raise f j' s' => raiseFault f j' s' := rfl

theorem runPrims_go {p : Prim} {ps : List Prim} {j j' : Job} {s s' : State} (h : perform p j s = .go j' s') :
    runPrims (p :: ps) j s = runPrims ps j' s' := by rw [runPrims_cons, h]

/-- Running a sequence: the state after its last primitive that was performed is the flow of some primitive, or the
sequence is empty. A relation that every primitive and every way to end keeps is kept by the run. -/
theorem runPrims_keeps {R : State → State → Prop} (trans : ∀ {a b c}, R a b → R b c → R a c)
    (prim : ∀ p j s, R s (perform p j s).state) (ends : ∀ j s, R s (finish j s))
    (holds : ∀ s sq, R s { s with seq := sq }) (raises : ∀ f j s, R s (raiseFault f j s))
    (ps : List Prim) (j : Job) (s : State) : R s (runPrims ps j s) := by
  induction ps generalizing j s with
  | nil => exact ends j s
  | cons p ps ih =>
    have hp := prim p j s
    rw [runPrims_cons]
    cases hf : perform p j s with
    | go j' s' => rw [hf] at hp; exact trans (show R s s' from hp) (ih j' s')
    | hold again j' s' => rw [hf] at hp; exact trans (show R s s' from hp) (holds _ _)
    | done j' s' => rw [hf] at hp; exact trans (show R s s' from hp) (ends _ _)
    | raise f j' s' => rw [hf] at hp; exact trans (show R s s' from hp) (raises _ _ _)

/-! ### What one primitive can do -/

/-- The gate's poll: a ready sample goes on; otherwise the timeout or the wait. -/
theorem pollGate_cases (j : Job) (s : State) :
    (lineReady s.cfg s.sample.1 = true ∧ pollGate j s = .go { j with gatePolls := 0 } s.sample.2) ∨
    (lineReady s.cfg s.sample.1 = false ∧ boundHit s.cfg (j.gatePolls + 1) = true ∧
      pollGate j s = .raise (.waitTimeout .gate) j
        (if s.sample.2.cs = .asserted then s.sample.2.setCs false else s.sample.2)) ∨
    (lineReady s.cfg s.sample.1 = false ∧ boundHit s.cfg (j.gatePolls + 1) = false ∧
      pollGate j s = .hold [.gate] { j with gatePolls := j.gatePolls + 1 } s.sample.2.backOff) := by
  unfold pollGate
  dsimp only
  generalize hl : lineReady s.cfg s.sample.1 = l
  cases l <;> cases boundHit s.cfg (j.gatePolls + 1) <;> simp

/-- The display wait's test: zero goes on; otherwise the timeout, kept or raised, or another poll. -/
theorem pollDisplay_cases (defer : Bool) (j : Job) (s : State) :
    (statusBusy j.last = false ∧ pollDisplay defer j s = .go { j with got := j.got.dropLast, dpyPolls := 0 } s) ∨
    (statusBusy j.last = true ∧ boundHit s.cfg (j.dpyPolls + 1) = true ∧ defer = true ∧
      pollDisplay defer j s = .go { j with got := j.got.dropLast, dpyPolls := 0, late := true } s) ∨
    (statusBusy j.last = true ∧ boundHit s.cfg (j.dpyPolls + 1) = true ∧ defer = false ∧
      pollDisplay defer j s = .raise (.waitTimeout .display) { j with got := j.got.dropLast } s) ∨
    (statusBusy j.last = true ∧ boundHit s.cfg (j.dpyPolls + 1) = false ∧
      pollDisplay defer j s = .hold (waitDpySeq s.cfg defer)
        { j with got := j.got.dropLast, dpyPolls := j.dpyPolls + 1 } s.backOff) := by
  unfold pollDisplay
  cases statusBusy j.last <;> cases boundHit s.cfg (j.dpyPolls + 1) <;> cases defer <;> simp

/-- The comparison of `SET_TMA`: the flag takes up a mismatch, and the fault is raised only where it is configured. -/
theorem checkTma_cases (t : DWord) (j : Job) (s : State) :
    ∃ r : DWord, ∃ d : Bool, d = tmaDiffers t r ∧
      r = readBackOf s.cfg.tmaOrder (j.got.getD (j.got.length - 2) 0) (j.got.getD (j.got.length - 1) 0) ∧
      ((checkTma t j s = .go j (s.noteMismatch d) ∧ ¬(d = true ∧ s.cfg.tmaMismatchFault = true)) ∨
        (checkTma t j s = .raise (.tmaMismatch t r) j (s.noteMismatch d) ∧ d = true ∧
          s.cfg.tmaMismatchFault = true)) := by
  refine ⟨_, _, rfl, rfl, ?_⟩
  unfold checkTma
  dsimp only
  split <;> simp_all

/-- The open: the block holds the pins, or the fault of 60 R222. -/
theorem claimTransport_cases (j : Job) (s : State) :
    (s.askOpen.1 = true ∧
      claimTransport j s = .go j { s.askOpen.2 with isOpen := true, cs := .deasserted, rst := .undriven }) ∨
    (s.askOpen.1 = false ∧ claimTransport j s = .raise .transportOpenFailed j s.askOpen.2) := by
  unfold claimTransport
  dsimp only
  generalize hl : s.askOpen.1 = ok
  cases ok <;> simp

/-- The configuration and the request port are no primitive's to change, and the history only grows. -/
theorem perform_keeps (p : Prim) (j : Job) (s : State) :
    (perform p j s).state.cfg = s.cfg ∧ (perform p j s).state.port = s.port ∧
      s.trace <+: (perform p j s).state.trace := by
  cases p with
  | gate =>
    rcases pollGate_cases j s with ⟨_, h⟩ | ⟨_, _, h⟩ | ⟨_, _, h⟩
    · simp [perform, h, Flow.state]
    · simp only [perform, h, Flow.state]; split <;> simp
    · simp [perform, h, Flow.state, backOff_trace]
  | dpyTest defer =>
    rcases pollDisplay_cases defer j s with ⟨_, h⟩ | ⟨_, _, _, h⟩ | ⟨_, _, _, h⟩ | ⟨_, _, h⟩ <;>
      simp [perform, h, Flow.state, backOff_trace]
  | tmaCheck t =>
    obtain ⟨r, d, -, -, ⟨h, -⟩ | ⟨h, -⟩⟩ := checkTma_cases t j s <;> simp [perform, h, Flow.state]
  | claim => rcases claimTransport_cases j s with ⟨_, h⟩ | ⟨_, h⟩ <;> simp [perform, h, Flow.state]
  | raiseLate => simp only [perform]; split <;> simp [Flow.state]
  | endIfVcom v => simp only [perform]; split <;> simp [Flow.state]
  | _ => simp [perform, Flow.state]

/-- A primitive that neither claims nor releases the transport leaves the session flag, the result and the sequencer
alone, and the job's operation and its way to fault. -/
theorem perform_inside (p : Prim) (j : Job) (s : State) (h1 : p ≠ .claim) (h2 : p ≠ .release) :
    (perform p j s).job.op = j.op ∧ (perform p j s).job.closeOnFault = j.closeOnFault ∧
      (perform p j s).state.isOpen = s.isOpen ∧ (perform p j s).state.resp = s.resp ∧
      (perform p j s).state.seq = s.seq := by
  cases p with
  | gate =>
    rcases pollGate_cases j s with ⟨_, e⟩ | ⟨_, _, e⟩ | ⟨_, _, e⟩ <;> simp only [perform, e, Flow.state, Flow.job]
    · simp
    · split <;> simp
    · simp
  | dpyTest d =>
    rcases pollDisplay_cases d j s with ⟨_, e⟩ | ⟨_, _, _, e⟩ | ⟨_, _, _, e⟩ | ⟨_, _, e⟩ <;>
      simp [perform, e, Flow.state, Flow.job]
  | tmaCheck t =>
    obtain ⟨r, d, -, -, ⟨e, -⟩ | ⟨e, -⟩⟩ := checkTma_cases t j s <;> simp [perform, e, Flow.state, Flow.job]
  | claim => exact absurd rfl h1
  | release => exact absurd rfl h2
  | raiseLate => simp only [perform]; split <;> simp [Flow.state, Flow.job]
  | endIfVcom v => simp only [perform]; split <;> simp [Flow.state, Flow.job]
  | _ => simp [perform, Flow.state, Flow.job]

/-- What a failed poll puts back in front of the rest is the loop it stands in. -/
theorem hold_again {p : Prim} {j j' : Job} {s s' : State} {again : List Prim} (h : perform p j s = .hold again j' s') :
    (p = .gate ∧ again = [.gate]) ∨ ∃ d, p = .dpyTest d ∧ again = waitDpySeq s.cfg d := by
  cases p with
  | gate =>
    rcases pollGate_cases j s with ⟨_, e⟩ | ⟨_, _, e⟩ | ⟨_, _, e⟩ <;> simp only [perform, e] at h <;> cases h
    exact .inl ⟨rfl, rfl⟩
  | dpyTest d =>
    rcases pollDisplay_cases d j s with ⟨_, e⟩ | ⟨_, _, _, e⟩ | ⟨_, _, _, e⟩ | ⟨_, _, e⟩ <;>
      simp only [perform, e] at h <;> cases h
    exact .inr ⟨d, rfl, rfl⟩
  | tmaCheck t => obtain ⟨r, d, -, -, ⟨e, -⟩ | ⟨e, -⟩⟩ := checkTma_cases t j s <;> simp only [perform, e] at h <;> cases h
  | claim => rcases claimTransport_cases j s with ⟨_, e⟩ | ⟨_, e⟩ <;> simp only [perform, e] at h <;> cases h
  | raiseLate => simp only [perform] at h; split at h <;> cases h
  | endIfVcom v => simp only [perform] at h; split at h <;> cases h
  | _ => cases h

/-- A run changes neither the configuration nor the request port, and the history only grows. -/
theorem runPrims_frame (ps : List Prim) (j : Job) (s : State) :
    (runPrims ps j s).cfg = s.cfg ∧ (runPrims ps j s).port = s.port ∧ s.trace <+: (runPrims ps j s).trace := by
  refine runPrims_keeps (R := fun a b => b.cfg = a.cfg ∧ b.port = a.port ∧ a.trace <+: b.trace) ?_ perform_keeps ?_ ?_ ?_
    ps j s
  · rintro a b c ⟨h1, h2, h3⟩ ⟨h4, h5, h6⟩
    exact ⟨h4.trans h1, h5.trans h2, h3.trans h6⟩
  · intro j s; simp
  · intro s sq; simp
  · intro f j s
    rcases raiseFault_session f j s with ⟨_, h, _⟩ | ⟨_, h, _⟩ <;> simp [h]

end Sys2Proof.Machine
end

