-- ==== Sys2Proof/Laws/Wire.lean ====
section
/-!
SUPPORT. Words and their wire bytes are the same data: the laws of byte order the wire decoder and the scripted
environments rest on.
-/

namespace Sys2Proof.Machine

open Sys2Proof

theorem ofBytes_wordBytes (w : Word) : ofBytes (hiByte w) (loByte w) = w := by
  unfold ofBytes hiByte loByte
  ext i hi
  simp only [BitVec.getElem_append, BitVec.getElem_extractLsb']
  split <;> simp_all

theorem hiByte_ofBytes (a b : Byte) : hiByte (ofBytes a b) = a := by
  unfold ofBytes hiByte
  ext i hi
  rw [BitVec.getElem_extractLsb']
  exact BitVec.getLsbD_append.trans (by simp [hi])

theorem loByte_ofBytes (a b : Byte) : loByte (ofBytes a b) = b := by
  unfold ofBytes loByte
  ext i hi
  rw [BitVec.getElem_extractLsb']
  exact BitVec.getLsbD_append.trans (by simp [hi])

/-- The bytes of words pair up to the words. -/
theorem pairUp_bytesOf (ws : List Word) : pairUp (bytesOf ws) = some ws := by
  induction ws with
  | nil => rfl
  | cons w ws ih =>
    show (pairUp (bytesOf ws)).map (ofBytes (hiByte w) (loByte w) :: ·) = _
    rw [ih, ofBytes_wordBytes]
    rfl

/-- The frame whose scope transmitted the words `p`, `ws` and received the words `rs`. -/
theorem classify_words (p : Word) (ws rs : List Word) :
    classify (bytesOf (p :: ws)) (bytesOf rs) =
      if p = Config.preCmd then
        match ws, rs with
        | [c], [] => .ok (.command c)
        | _, _ => .error .notAFrame
      else if p = Config.preWr then
        match ws, rs with
        | d :: ds, [] => .ok (.write (d :: ds))
        | _, _ => .error .notAFrame
      else if p = Config.preRd then
        match ws, rs with
        | [], x :: r :: rs => .ok (.read x (r :: rs))
        | _, _ => .error .notAFrame
      else .error .unknownPreamble := by
  rw [classify, pairUp_bytesOf, pairUp_bytesOf] <;> rfl

end Sys2Proof.Machine
end

