-- ==== Sys2Proof/Laws/Script.lean ====
section
/-!
SUPPORT. Running the sequences against an environment that answers a script: every gate ready at its first sample, and
given words received. One lemma per sequence of Machine/Expand.lean; the completion claims are chained from them.
-/

namespace Sys2Proof.Machine

open Sys2Proof

/-! ### Normal forms -/

/-- `s` with another environment and chip-select latch, and with `evs` appended to its history. -/
def State.put (s : State) (env : Env) (cs : CsLatch) (evs : List Event) : State :=
  { s with env := env, cs := cs, trace := s.trace ++ evs }

@[simp] theorem put_cfg (s : State) (env : Env) (cs : CsLatch) (evs : List Event) : (s.put env cs evs).cfg = s.cfg := rfl
@[simp] theorem put_tmaMismatch (s : State) (env : Env) (cs : CsLatch) (evs : List Event) :
    (s.put env cs evs).tmaMismatch = s.tmaMismatch := rfl

theorem put_self (s : State) : s = s.put s.env s.cs [] := by simp [State.put]

/-- A job that is in no wait loop and has no timeout pending. -/
structure Job.Fresh (j : Job) : Prop where
  gate : j.gatePolls = 0
  display : j.dpyPolls = 0
  onTime : j.late = false

/-- `j` with one more word received. -/
def Job.take (j : Job) (w : Word) : Job := { j with got := j.got ++ [w] }

/-- `j` with more words received. -/
def Job.takes (j : Job) (ws : List Word) : Job := { j with got := j.got ++ ws }

theorem Job.Fresh.take {j : Job} (h : j.Fresh) (w : Word) : (j.take w).Fresh := ⟨h.gate, h.display, h.onTime⟩

theorem Job.Fresh.takes {j : Job} (h : j.Fresh) (ws : List Word) : (j.takes ws).Fresh := ⟨h.gate, h.display, h.onTime⟩

theorem take_last (j : Job) (w : Word) : (j.take w).last = w := by simp [Job.take, Job.last]

theorem takes_nil (j : Job) : j.takes [] = j := by simp [Job.takes]

theorem take_takes (j : Job) (w : Word) (ws : List Word) : (j.take w).takes ws = j.takes (w :: ws) := by
  simp [Job.takes, Job.take]

/-- A job as `Job.start` makes it waits for nothing. -/
theorem start_fresh (op : Instr) (ret : Ret) (body : List Prim) : (Job.start op ret body).Fresh := ⟨rfl, rfl, rfl⟩

@[simp] theorem observe_script (c c' : Cfg) (n : Nat) (ws : List Word) (e : Tape) (ev : Event) :
    (Env.script c n ws e).observe c' ev = Env.script c n ws e := rfl

theorem script_zero (c : Cfg) (e : Tape) : Env.script c 0 [] e = .tape e := by
  simp [Env.script, wireBytes]

/-! ### One primitive -/

variable {ps : List Prim} {j : Job} {s : State} {n : Nat} {ws : List Word} {e : Tape} {cs : CsLatch} {evs : List Event}

theorem script_gate (hj : j.gatePolls = 0) :
    runPrims (.gate :: ps) j (s.put (Env.script s.cfg (n + 1) ws e) cs evs)
      = runPrims ps j (s.put (Env.script s.cfg n ws e) cs (evs ++ [readyEvent s.cfg])) := by
  refine runPrims_go ?_
  obtain ⟨op, todo, ret, got, g, d, l, cl⟩ := j
  obtain rfl : g = 0 := hj
  simp [perform, pollGate, State.sample, State.put, Env.script, Env.level, List.replicate_succ, lineReady, State.emit,
    Env.observe, readyEvent]

theorem script_cs (on : Bool) :
    runPrims (.cs on :: ps) j (s.put (Env.script s.cfg n ws e) cs evs)
      = runPrims ps j (s.put (Env.script s.cfg n ws e) (if on then .asserted else .deasserted) (evs ++ [.cs on])) := by
  refine runPrims_go ?_
  simp [perform, State.setCs, State.emit, State.put]

theorem script_tx (w : Word) :
    runPrims (.tx w :: ps) j (s.put (Env.script s.cfg n ws e) cs evs)
      = runPrims ps j (s.put (Env.script s.cfg n ws e) cs (evs ++ txEvents w)) := by
  refine runPrims_go ?_
  simp [perform, State.txWord, State.emit, State.put, txEvents]

theorem script_txMasked (on : Bool) :
    runPrims (.txMasked on :: ps) j (s.put (Env.script s.cfg n ws e) cs evs)
      = runPrims ps j (s.put (Env.script s.cfg n ws e) cs (evs ++ txEvents (with1bpp s.cfg on j.last))) := by
  refine runPrims_go ?_
  simp [perform, State.txWord, State.emit, State.put, txEvents]

/-- Receiving a word from a script. -/
theorem script_receive (w : Word) :
    (s.put (Env.script s.cfg n (w :: ws) e) cs evs).rxWord
      = (w, s.put (Env.script s.cfg n ws e) cs (evs ++ rxEvents w)) := by
  simp [State.rxWord, State.rxByte, State.emit, State.put, Env.script, Env.byte, wireBytes, wordBytes, Env.observe,
    rxEvents, ofBytes_wordBytes]

theorem script_rxDummy (d : Word) :
    runPrims (.rxDummy :: ps) j (s.put (Env.script s.cfg n (d :: ws) e) cs evs)
      = runPrims ps j (s.put (Env.script s.cfg n ws e) cs (evs ++ rxEvents d)) :=
  runPrims_go (by simp [perform, script_receive])

theorem script_rxWord (w : Word) :
    runPrims (.rxWord :: ps) j (s.put (Env.script s.cfg n (w :: ws) e) cs evs)
      = runPrims ps (j.take w) (s.put (Env.script s.cfg n ws e) cs (evs ++ rxEvents w)) :=
  runPrims_go (by simp [perform, script_receive, Job.take])

theorem script_rst (l : Level) :
    runPrims (.rst l :: ps) j (s.put (Env.script s.cfg n ws e) cs evs)
      = runPrims ps j ({ s with rst := .driven l }.put (Env.script s.cfg n ws e) cs (evs ++ [Event.rst l])) := by
  refine runPrims_go ?_
  simp [perform, State.setRst, State.emit, State.put]

theorem script_sleep (d : Nat) :
    runPrims (.sleep d :: ps) j (s.put (Env.script s.cfg n ws e) cs evs)
      = runPrims ps j (s.put (Env.script s.cfg n ws e) cs (evs ++ [.sleep d])) := by
  refine runPrims_go ?_
  simp [perform, State.emit, State.put]

/-- The display wait's test on a zero status word, whatever its polls so far. -/
theorem script_dpyTest (defer : Bool) :
    runPrims (.dpyTest defer :: ps) (j.take 0) s = runPrims ps { j with dpyPolls := 0 } s := by
  refine runPrims_go ?_
  rw [perform, pollDisplay, take_last]
  simp [statusBusy, Job.take]

theorem script_raiseLate (hj : j.late = false) : runPrims (.raiseLate :: ps) j s = runPrims ps j s :=
  runPrims_go (by simp [perform, hj])

/-! ### Frames -/

theorem script_sendCmd (hj : j.gatePolls = 0) (code : Word) :
    runPrims (sendCmdSeq code ++ ps) j (s.put (Env.script s.cfg (n + 2) ws e) cs evs)
      = runPrims ps j (s.put (Env.script s.cfg n ws e) .deasserted (evs ++ cmdFrame s.cfg code)) := by
  simp only [sendCmdSeq, List.cons_append, List.nil_append, script_gate hj, script_cs, script_tx]
  simp [cmdFrame, outFrame]

theorem script_sendData (hj : j.gatePolls = 0) (v : Word) :
    runPrims (sendDataSeq v ++ ps) j (s.put (Env.script s.cfg (n + 2) ws e) cs evs)
      = runPrims ps j (s.put (Env.script s.cfg n ws e) .deasserted (evs ++ dataFrame s.cfg [v])) := by
  simp only [sendDataSeq, List.cons_append, List.nil_append, script_gate hj, script_cs, script_tx]
  simp [dataFrame, outFrame]

theorem script_payload (hj : j.gatePolls = 0) (ds : List Word) :
    runPrims (payloadSeq ds ++ ps) j (s.put (Env.script s.cfg (n + ds.length) ws e) cs evs)
      = runPrims ps j (s.put (Env.script s.cfg n ws e) cs
          (evs ++ ds.flatMap (fun w => readyEvent s.cfg :: txEvents w))) := by
  induction ds generalizing evs with
  | nil => simp [payloadSeq]
  | cons d ds ih =>
    simp only [payloadSeq, List.cons_append, List.length_cons, ← Nat.add_assoc, script_gate hj, script_tx, ih]
    simp

theorem script_sendBuf (hj : j.gatePolls = 0) (ds : List Word) :
    runPrims (sendBufSeq ds ++ ps) j (s.put (Env.script s.cfg (n + ds.length + 1) ws e) cs evs)
      = runPrims ps j (s.put (Env.script s.cfg n ws e) .deasserted (evs ++ dataFrame s.cfg ds)) := by
  simp only [sendBufSeq, List.cons_append, List.nil_append, List.append_assoc, script_gate hj, script_cs, script_tx,
    script_payload hj]
  simp [dataFrame, outFrame]

theorem script_readData (hj : j.gatePolls = 0) (d v : Word) :
    runPrims (readDataSeq ++ ps) j (s.put (Env.script s.cfg (n + 3) (d :: v :: ws) e) cs evs)
      = runPrims ps (j.take v) (s.put (Env.script s.cfg n ws e) .deasserted (evs ++ readFrame s.cfg d [v])) := by
  simp only [readDataSeq, List.cons_append, List.nil_append, script_gate hj, script_cs, script_tx, script_rxDummy,
    script_rxWord]
  simp [readFrame]

theorem script_receives (hj : j.gatePolls = 0) (rs : List Word) :
    runPrims (receiveSeq rs.length ++ ps) j (s.put (Env.script s.cfg (n + rs.length) (rs ++ ws) e) cs evs)
      = runPrims ps (j.takes rs) (s.put (Env.script s.cfg n ws e) cs
          (evs ++ rs.flatMap (fun w => readyEvent s.cfg :: rxEvents w))) := by
  induction rs generalizing evs j with
  | nil => simp [receiveSeq, takes_nil]
  | cons r rs ih =>
    simp only [receiveSeq, List.cons_append, List.length_cons, ← Nat.add_assoc, script_gate hj, script_rxWord,
      ih (j := j.take r) hj, take_takes]
    simp

theorem script_readBuf (hj : j.gatePolls = 0) (d : Word) (rs : List Word) :
    runPrims (readBufSeq rs.length ++ ps) j
        (s.put (Env.script s.cfg (n + rs.length + 2) (d :: (rs ++ ws)) e) cs evs)
      = runPrims ps (j.takes rs) (s.put (Env.script s.cfg n ws e) .deasserted (evs ++ readFrame s.cfg d rs)) := by
  simp only [readBufSeq, List.cons_append, List.nil_append, List.append_assoc, script_gate hj, script_cs, script_tx,
    script_rxDummy, script_receives hj]
  simp [readFrame]

/-! ### Command sequences -/

theorem script_args (hj : j.gatePolls = 0) (code : Word) (ds : List Word) :
    runPrims (sendCmdArgsSeq code ds ++ ps) j (s.put (Env.script s.cfg (n + ds.length + 3) ws e) cs evs)
      = runPrims ps j (s.put (Env.script s.cfg n ws e) .deasserted (evs ++ argsEvents s.cfg code ds)) := by
  rw [sendCmdArgsSeq, List.append_assoc, script_sendCmd hj, script_sendBuf hj]
  simp [argsEvents]

theorem script_readReg (hj : j.gatePolls = 0) (a d v : Word) :
    runPrims (readRegSeq s.cfg a ++ ps) j (s.put (Env.script s.cfg (n + 7) (d :: v :: ws) e) cs evs)
      = runPrims ps (j.take v) (s.put (Env.script s.cfg n ws e) .deasserted (evs ++ readRegEvents s.cfg a d v)) := by
  rw [readRegSeq, List.append_assoc, List.append_assoc, script_sendCmd hj, script_sendData hj, script_readData hj]
  simp [readRegEvents]

theorem script_writeReg (hj : j.gatePolls = 0) (a v : Word) :
    runPrims (writeRegSeq s.cfg a v ++ ps) j (s.put (Env.script s.cfg (n + 6) ws e) cs evs)
      = runPrims ps j (s.put (Env.script s.cfg n ws e) .deasserted (evs ++ writeRegEvents s.cfg a v)) := by
  rw [writeRegSeq, List.append_assoc, List.append_assoc, script_sendCmd hj, script_sendData hj, script_sendData hj]
  simp [writeRegEvents]

theorem script_writeMasked (hj : j.gatePolls = 0) (a : Word) (on : Bool) :
    runPrims (writeMaskedSeq s.cfg a on ++ ps) j (s.put (Env.script s.cfg (n + 6) ws e) cs evs)
      = runPrims ps j (s.put (Env.script s.cfg n ws e) .deasserted
          (evs ++ writeRegEvents s.cfg a (with1bpp s.cfg on j.last))) := by
  rw [writeMaskedSeq, List.append_assoc, List.append_assoc, script_sendCmd hj, script_sendData hj]
  simp only [List.cons_append, List.nil_append, script_gate hj, script_cs, script_tx, script_txMasked]
  simp [writeRegEvents, dataFrame, outFrame]

/-- The display wait on an idle engine, at its first poll or after failed ones. -/
theorem script_waitDpy (hj : j.gatePolls = 0) (defer : Bool) (d : Word) :
    runPrims (waitDpySeq s.cfg defer ++ ps) j (s.put (Env.script s.cfg (n + 7) (d :: 0 :: ws) e) cs evs)
      = runPrims ps { j with dpyPolls := 0 } (s.put (Env.script s.cfg n ws e) .deasserted
          (evs ++ readRegEvents s.cfg s.cfg.regDpyStatus d 0)) := by
  rw [waitDpySeq, List.append_assoc, script_readReg hj, List.cons_append, List.nil_append, script_dpyTest]

/-- The display wait of a job that has not polled yet. -/
theorem script_waitFirst (hj : j.Fresh) (defer : Bool) (d : Word) :
    runPrims (waitDpySeq s.cfg defer ++ ps) j (s.put (Env.script s.cfg (n + 7) (d :: 0 :: ws) e) cs evs)
      = runPrims ps j (s.put (Env.script s.cfg n ws e) .deasserted
          (evs ++ readRegEvents s.cfg s.cfg.regDpyStatus d 0)) := by
  have hd : { j with dpyPolls := 0 } = j := by
    obtain ⟨op, todo, ret, got, g, d, l, cl⟩ := j
    obtain rfl : d = 0 := hj.display
    rfl
  rw [script_waitDpy hj.gate, hd]

/-- The end of `DPY_1BPP` after its wait, no timeout kept back. -/
theorem script_clear1bpp (hj : j.gatePolls = 0) (hl : j.late = false) (d v : Word) :
    runPrims (clear1bppSeq s.cfg ++ ps) j (s.put (Env.script s.cfg (n + 13) (d :: v :: ws) e) cs evs)
      = runPrims ps (j.take v) (s.put (Env.script s.cfg n ws e) .deasserted
          (evs ++ readRegEvents s.cfg s.cfg.reg1bppCtrl d v ++
            writeRegEvents s.cfg s.cfg.reg1bppCtrl (v &&& ~~~(mask1bpp s.cfg)))) := by
  simp only [clear1bppSeq, List.append_assoc, List.cons_append, List.nil_append]
  rw [show n + 13 = n + 6 + 7 from rfl, script_readReg hj, script_writeMasked (j := j.take v) hj,
    script_raiseLate (j := j.take v) hl, take_last]
  simp [with1bpp]

theorem script_display (hj : j.gatePolls = 0) (x y w h mode : Word) (addr : Option DWord) :
    runPrims (displaySeq s.cfg x y w h mode addr ++ ps) j
        (s.put (Env.script s.cfg (n + displayGates addr) ws e) cs evs)
      = runPrims ps j (s.put (Env.script s.cfg n ws e) .deasserted
          (evs ++ displayEvents s.cfg x y w h mode addr)) := by
  cases addr with
  | none => exact script_args hj _ (dpyArgs x y w h mode)
  | some t => exact script_args hj _ (dpyBufArgs x y w h mode t)

theorem script_dpy1bpp (hj : j.Fresh) (x y w h mode : Word) (addr : Option DWord) (bg fg : Byte)
    (d1 v d2 d3 v2 : Word) :
    runPrims (dpy1bppSeq s.cfg x y w h mode addr bg fg ++ ps) j
        (s.put (Env.script s.cfg (n + displayGates addr + 39) ([d1, v, d2, 0, d3, v2] ++ ws) e) cs evs)
      = runPrims ps ((j.take v).take v2) (s.put (Env.script s.cfg n ws e) .deasserted
          (evs ++ mono1bppEvents s.cfg x y w h mode addr bg fg d1 v d2 0 d3 v2)) := by
  have e1 : n + displayGates addr + 39 = (n + 13 + 7 + displayGates addr) + 6 + 6 + 7 := by omega
  have hv := hj.take v
  simp only [dpy1bppSeq, List.append_assoc, List.cons_append, List.nil_append, e1, script_readReg hj.gate,
    script_writeMasked hv.gate, script_writeReg hv.gate, script_display hv.gate]
  simp only [script_waitFirst hv, script_clear1bpp hv.gate hv.onTime, take_last]
  simp [mono1bppEvents, with1bpp]

/-- `SET_TMA` against a script, where a mismatch raises no fault. -/
theorem script_setTma (hj : j.gatePolls = 0) (t : DWord) (d1 r1 d2 r2 : Word)
    (ok : ¬(readBackAddr s.cfg r1 r2 ≠ t ∧ s.cfg.tmaMismatchFault = true)) :
    runPrims (setTmaSeq s.cfg t ++ ps) j (s.put (Env.script s.cfg (n + 26) ([d1, r1, d2, r2] ++ ws) e) cs evs)
      = runPrims ps ((j.take r1).take r2)
          ({ s with tmaMismatch := s.tmaMismatch || decide (readBackAddr s.cfg r1 r2 ≠ t) }.put
            (Env.script s.cfg n ws e) .deasserted (evs ++ setTmaEvents s.cfg t d1 r1 d2 r2)) := by
  have hr1 : (j.take r1).gatePolls = 0 := hj
  have check : ∀ evs', runPrims (.tmaCheck t :: ps) ((j.take r1).take r2)
        (s.put (Env.script s.cfg n ws e) .deasserted evs')
      = runPrims ps ((j.take r1).take r2)
          ({ s with tmaMismatch := s.tmaMismatch || decide (readBackAddr s.cfg r1 r2 ≠ t) }.put
            (Env.script s.cfg n ws e) .deasserted evs') := by
    intro evs'
    refine runPrims_go ?_
    have back : readBackOf s.cfg.tmaOrder (((j.take r1).take r2).got.getD (((j.take r1).take r2).got.length - 2) 0)
        (((j.take r1).take r2).got.getD (((j.take r1).take r2).got.length - 1) 0) = readBackAddr s.cfg r1 r2 := by
      simp only [readBackAddr]
      cases s.cfg.tmaOrder <;> simp [Job.take, readBackOf]
    simp only [perform, checkTma, put_cfg, back]
    have hd : tmaDiffers t (readBackAddr s.cfg r1 r2) = decide (readBackAddr s.cfg r1 r2 ≠ t) := by
      by_cases h : readBackAddr s.cfg r1 r2 = t <;> simp [tmaDiffers, h]
    rw [hd]
    have hok : (decide (readBackAddr s.cfg r1 r2 ≠ t) && s.cfg.tmaMismatchFault) = false := by
      by_cases h : readBackAddr s.cfg r1 r2 = t <;> simp_all
    rw [if_neg (by rw [hok]; exact Bool.false_ne_true)]
    rfl
  rcases ho : s.cfg.tmaOrder with _ | _ <;>
    simp only [setTmaSeq, ho, List.append_assoc, script_writeReg hj, script_readReg hj, script_readReg hr1,
      List.cons_append, List.nil_append, check] <;>
    simp [setTmaEvents, ho, pairHigh]

theorem script_load (hj : j.gatePolls = 0) (info : LoadImageInfo) (a : AreaImageInfo) (d1 r1 d2 r2 : Word)
    (ok : ¬(readBackAddr s.cfg r1 r2 ≠ info.target ∧ s.cfg.tmaMismatchFault = true)) :
    runPrims (hostAreaWriteSeq s.cfg info a ++ ps) j
        (s.put (Env.script s.cfg (n + info.src.length + 37) ([d1, r1, d2, r2] ++ ws) e) cs evs)
      = runPrims ps ((j.take r1).take r2)
          ({ s with tmaMismatch := s.tmaMismatch || decide (readBackAddr s.cfg r1 r2 ≠ info.target) }.put
            (Env.script s.cfg n ws e) .deasserted (evs ++ loadEvents s.cfg info a d1 r1 d2 r2)) := by
  have hr2 : ((j.take r1).take r2).gatePolls = 0 := hj
  have e1 : n + info.src.length + 37 = (((n + 2) + info.src.length + 1) + 8) + 26 := by omega
  simp only [hostAreaWriteSeq, List.append_assoc, e1]
  rw [script_setTma hj _ _ _ _ _ ok]
  simp only [ldImgAreaStartSeq, ldImgEndSeq]
  generalize hs' : ({ s with tmaMismatch := s.tmaMismatch || decide (readBackAddr s.cfg r1 r2 ≠ info.target) } : State) = s'
  have hc : s.cfg = s'.cfg := by rw [← hs']
  rw [hc]
  rw [show (n + 2 + info.src.length + 1 + 8) = (n + 2 + info.src.length + 1) + (loadAreaArgs info a).length + 3 from rfl,
    script_args hr2, script_sendBuf hr2, script_sendCmd hr2]
  simp [loadEvents, loadAreaArgs]

/-! ### Polls that fail, and the ready sample after them -/

theorem boundHit_below {c : Cfg} {k : Nat} (h : ∀ b : ℕ+, c.pollBound = some b → k < (b : Nat)) :
    boundHit c k = false := by
  unfold boundHit
  cases hb : c.pollBound with
  | none => rfl
  | some b => have := h b hb; simp; omega

/-- A gate that samples ready, at its first poll or after failed ones. -/
theorem tape_gate_ready {l : Level} (hl : l = s.cfg.readyLevel) (hs : s.env = .tape { e with rdy := l :: e.rdy }) :
    runPrims (.gate :: ps) j s
      = runPrims ps { j with gatePolls := 0 } { s with trace := s.trace ++ [.rdy l], env := .tape e } := by
  have hr : lineReady s.cfg l = true := by simp [lineReady, hl]
  simp only [runPrims_cons, perform, pollGate, State.sample, hs, Env.level, hr]
  simp [State.emit, Env.observe]

/-- A gate whose poll fails below its bound waits. -/
theorem tape_gate_failed {l : Level} (hl : l ≠ s.cfg.readyLevel)
    (hb : ∀ b : ℕ+, s.cfg.pollBound = some b → j.gatePolls + 1 < (b : Nat))
    (hs : s.env = .tape { e with rdy := l :: e.rdy }) :
    runPrims (.gate :: ps) j s
      = { s with
          seq := .running { j with gatePolls := j.gatePolls + 1, todo := .gate :: ps },
          trace := s.trace ++ failedPoll s.cfg l, env := .tape e } := by
  have hr : lineReady s.cfg l = false := by simp [lineReady, hl]
  simp only [runPrims_cons, perform, pollGate, State.sample, hs, Env.level, hr, boundHit_below hb]
  unfold State.backOff failedPoll
  rcases hp : s.cfg.pollSleep with _ | d <;> simp [hp, State.emit, Env.observe]

/-- A display wait that reads a busy status below its bound waits. -/
theorem script_busyPoll {v : Word} (hv : v ≠ 0) (hj : j.gatePolls = 0)
    (hb : ∀ b : ℕ+, s.cfg.pollBound = some b → j.dpyPolls + 1 < (b : Nat)) (defer : Bool) (d : Word) :
    runPrims (waitDpySeq s.cfg defer ++ ps) j (s.put (Env.script s.cfg (n + 7) (d :: v :: ws) e) cs evs)
      = { s.put (Env.script s.cfg n ws e) .deasserted (evs ++ busyPoll s.cfg d v) with
          seq := .running { j with dpyPolls := j.dpyPolls + 1, todo := waitDpySeq s.cfg defer ++ ps } } := by
  have hh := boundHit_below hb
  conv_lhs => rw [waitDpySeq, List.append_assoc, script_readReg hj, List.singleton_append, runPrims_cons]
  simp only [perform, pollDisplay, take_last, statusBusy, put_cfg]
  rw [show (j.take v).dpyPolls = j.dpyPolls from rfl, hh]
  simp only [bne_iff_ne, ne_eq, hv, not_false_eq_true, if_true]
  unfold State.backOff busyPoll
  rcases hp : s.cfg.pollSleep with _ | p <;> simp [hp, Job.take, State.put, State.emit, Env.observe, Env.script]

end Sys2Proof.Machine
end

