-- ==== Sys2Proof/Laws/Backend.lean ====
section
/-!
SUPPORT. The fake backend of 92 D29: its register map under reads and writes, what it does at each frame, and the
sequences of Machine/Expand.lean run against it.
-/

namespace Sys2Proof.Machine

open Sys2Proof

/-! ### The register map -/

theorem regsWf_cons {a : Nat} {w : Word} {rest : List (Nat × Word)} :
    regsWf ((a, w) :: rest) = true ↔ w ≠ 0 ∧ (∀ p ∈ rest, a < p.1) ∧ regsWf rest = true := by
  simp [regsWf, and_assoc]

/-- An address below every listed one reads zero. -/
theorem regsRead_below {rs : List (Nat × Word)} {a : Nat} (h : ∀ p ∈ rs, a < p.1) : regsRead rs a = 0 := by
  induction rs with
  | nil => rfl
  | cons p rest ih =>
    obtain ⟨b, w⟩ := p
    have hb : a < b := h _ List.mem_cons_self
    rw [regsRead, if_neg (by omega), ih fun q hq => h q (List.mem_cons_of_mem _ hq)]

/-- Reading after writing: the written word at its address, any other address as before. -/
theorem regsRead_write {rs : List (Nat × Word)} (h : regsWf rs = true) (a b : Nat) (v : Word) :
    regsRead (regsWrite rs a v) b = if b = a then v else regsRead rs b := by
  induction rs with
  | nil =>
    rw [regsWrite]
    by_cases hv : v = 0
    · simp [hv, regsRead]
    · rw [if_neg hv]
      simp [regsRead]
  | cons p rest ih =>
    obtain ⟨c, w⟩ := p
    obtain ⟨hw, hr, hrest⟩ := regsWf_cons.1 h
    have ih := ih hrest
    rw [regsWrite]
    by_cases h1 : a < c
    · rw [if_pos h1]
      by_cases hv : v = 0
      · rw [if_pos hv]
        by_cases hb : b = a
        · subst hb
          rw [if_pos rfl, hv, regsRead, if_neg (by omega), regsRead_below fun p hp => by have := hr p hp; omega]
        · rw [if_neg hb]
      · rw [if_neg hv, regsRead]
    · rw [if_neg h1]
      by_cases h2 : a = c
      · subst h2
        rw [if_pos rfl]
        by_cases hv : v = 0
        · rw [if_pos hv]
          by_cases hb : b = a
          · subst hb
            rw [if_pos rfl, hv, regsRead_below hr]
          · rw [if_neg hb, regsRead, if_neg hb]
        · rw [if_neg hv, regsRead]
          by_cases hb : b = a
          · rw [if_pos hb, if_pos hb]
          · rw [if_neg hb, if_neg hb, regsRead, if_neg hb]
      · rw [if_neg h2, regsRead, regsRead, ih]
        by_cases hc : b = c
        · rw [if_pos hc, if_pos hc, if_neg (by omega)]
        · rw [if_neg hc, if_neg hc]

/-- The addresses listed after a write: those before it and the one written. -/
theorem mem_regsWrite {rs : List (Nat × Word)} {a : Nat} {v : Word} {p : Nat × Word} (h : p ∈ regsWrite rs a v) :
    p = (a, v) ∨ p ∈ rs := by
  induction rs with
  | nil =>
    rw [regsWrite] at h
    split at h <;> simp_all
  | cons q rest ih =>
    obtain ⟨c, w⟩ := q
    rw [regsWrite] at h
    split at h
    · split at h <;> simp_all
    · split at h
      · split at h <;> simp_all
        rcases h with h | h <;> simp [h]
      · rcases List.mem_cons.1 h with h | h
        · exact .inr (h ▸ List.mem_cons_self)
        · rcases ih h with h | h
          · exact .inl h
          · exact .inr (List.mem_cons_of_mem _ h)

/-- A write keeps the canonical form. -/
theorem regsWrite_wf {rs : List (Nat × Word)} (h : regsWf rs = true) (a : Nat) (v : Word) :
    regsWf (regsWrite rs a v) = true := by
  induction rs with
  | nil =>
    rw [regsWrite]
    by_cases hv : v = 0
    · rw [if_pos hv]
      rfl
    · rw [if_neg hv, regsWf_cons]
      exact ⟨hv, by simp, rfl⟩
  | cons p rest ih =>
    obtain ⟨c, w⟩ := p
    obtain ⟨hw, hr, hrest⟩ := regsWf_cons.1 h
    rw [regsWrite]
    by_cases h1 : a < c
    · rw [if_pos h1]
      by_cases hv : v = 0
      · rwa [if_pos hv]
      · rw [if_neg hv, regsWf_cons]
        refine ⟨hv, fun p hp => ?_, h⟩
        rcases List.mem_cons.1 hp with rfl | hp
        · exact h1
        · exact h1.trans (hr p hp)
    · rw [if_neg h1]
      by_cases h2 : a = c
      · subst h2
        rw [if_pos rfl]
        by_cases hv : v = 0
        · rwa [if_pos hv]
        · rw [if_neg hv, regsWf_cons]
          exact ⟨hv, hr, hrest⟩
      · rw [if_neg h2, regsWf_cons]
        refine ⟨hw, fun p hp => ?_, ih hrest⟩
        rcases mem_regsWrite hp with rfl | hp
        · show c < a
          omega
        · exact hr p hp

/-! ### Events and frames -/

/-- Whatever frame ends, the register map stays canonical. -/
theorem backendFrame_wf (c : Cfg) {b : Backend} (h : regsWf b.regs = true) (f : Except DecodeError WireFrame) :
    regsWf (backendFrame c b f).regs = true := by
  unfold backendFrame
  split
  · exact h
  · unfold backendWrite
    split
    · dsimp only
      split
      · exact regsWrite_wf h _ _
      · exact h
    · split <;> exact h
    · split <;> exact h
    · exact h
  · exact h
  · exact h

/-- No event takes the environment out of its canonical form. -/
theorem observe_canonical (c : Cfg) {env : Env} (h : env.canonical = true) (e : Event) :
    (env.observe c e).canonical = true := by
  cases env with
  | tape t => rfl
  | fake b =>
    have h : regsWf b.regs = true := h
    show regsWf (backendObserve c b e).regs = true
    unfold backendObserve
    split
    · exact h
    · split
      · exact backendFrame_wf c h _
      · exact h
    · split <;> exact h
    · split <;> exact h
    all_goals exact h

/-- The backend after a complete frame that transmitted `tx` and received `rx`. -/
def Backend.saw (c : Cfg) (b : Backend) (tx rx : List Word) : Backend :=
  { backendFrame c b (classify (bytesOf tx) (bytesOf rx)) with scope := none }

variable {ps : List Prim} {j : Job} {s : State} {b : Backend} {cs : CsLatch} {evs : List Event}

theorem fake_gate (hj : j.Fresh) :
    runPrims (.gate :: ps) j (s.put (.fake b) cs evs)
      = runPrims ps j (s.put (.fake b) cs (evs ++ [readyEvent s.cfg])) := by
  refine runPrims_go ?_
  obtain ⟨op, todo, ret, got, g, d, l, cl⟩ := j
  obtain rfl : g = 0 := hj.gate
  simp [perform, pollGate, State.sample, State.put, Env.level, lineReady, State.emit, Env.observe, backendObserve,
    readyEvent]

/-- What a frame does does not depend on the scope it was read from. -/
theorem backendFrame_scope (c : Cfg) (b : Backend) (sc : Option (List Byte × List Byte))
    (f : Except DecodeError WireFrame) :
    ({ backendFrame c { b with scope := sc } f with scope := none } : Backend)
      = { backendFrame c b f with scope := none } := by
  unfold backendFrame
  split
  · rfl
  · unfold backendWrite
    dsimp only
    split
    · rfl
    · split <;> rfl
    · split <;> rfl
    · rfl
  · rfl
  · rfl

theorem fake_open :
    runPrims (.cs true :: ps) j (s.put (.fake b) cs evs)
      = runPrims ps j (s.put (.fake { b with scope := some ([], []) }) .asserted (evs ++ [.cs true])) :=
  runPrims_go (by simp [perform, State.setCs, State.emit, State.put, Env.observe, backendObserve])

theorem fake_tx (tx : List Byte) (w : Word) :
    runPrims (.tx w :: ps) j (s.put (.fake { b with scope := some (tx, []) }) cs evs)
      = runPrims ps j (s.put (.fake { b with scope := some (tx ++ wordBytes w, []) }) cs (evs ++ txEvents w)) :=
  runPrims_go (by simp [perform, State.txWord, State.emit, State.put, Env.observe, backendObserve, wordBytes, txEvents])

theorem fake_close (tx rx : List Word) :
    runPrims (.cs false :: ps) j (s.put (.fake { b with scope := some (bytesOf tx, bytesOf rx) }) cs evs)
      = runPrims ps j (s.put (.fake (b.saw s.cfg tx rx)) .deasserted (evs ++ [.cs false])) := by
  refine runPrims_go ?_
  simp only [perform, State.setCs, State.emit, State.put, Env.observe, backendObserve, Backend.saw, backendFrame_scope,
    List.append_assoc, Bool.false_eq_true, if_false]

/-- `SEND_CMD` against the backend. -/
theorem fake_sendCmd (hj : j.Fresh) (code : Word) :
    runPrims (sendCmdSeq code ++ ps) j (s.put (.fake b) cs evs)
      = runPrims ps j (s.put (.fake (b.saw s.cfg [Config.preCmd, code] [])) .deasserted
          (evs ++ cmdFrame s.cfg code)) := by
  have close := fake_close (ps := ps) (j := j) (s := s) (b := b) (cs := .asserted)
    (evs := evs ++ [readyEvent s.cfg] ++ [.cs true] ++ txEvents Config.preCmd ++ [readyEvent s.cfg] ++ txEvents code)
    [Config.preCmd, code] []
  simp only [sendCmdSeq, List.cons_append, List.nil_append, fake_gate hj, fake_open, fake_tx]
  refine close.trans ?_
  simp [cmdFrame, outFrame]

/-- `SEND_DATA` against the backend. -/
theorem fake_sendData (hj : j.Fresh) (v : Word) :
    runPrims (sendDataSeq v ++ ps) j (s.put (.fake b) cs evs)
      = runPrims ps j (s.put (.fake (b.saw s.cfg [Config.preWr, v] [])) .deasserted
          (evs ++ dataFrame s.cfg [v])) := by
  have close := fake_close (ps := ps) (j := j) (s := s) (b := b) (cs := .asserted)
    (evs := evs ++ [readyEvent s.cfg] ++ [.cs true] ++ txEvents Config.preWr ++ [readyEvent s.cfg] ++ txEvents v)
    [Config.preWr, v] []
  simp only [sendDataSeq, List.cons_append, List.nil_append, fake_gate hj, fake_open, fake_tx]
  refine close.trans ?_
  simp [dataFrame, outFrame]

/-- `READ_DATA` against the backend, where it has a first data word `w`. -/
theorem fake_readData (hj : j.Fresh) {w : Word} (hw : backendData s.cfg b 0 = some w) :
    runPrims (readDataSeq ++ ps) j (s.put (.fake b) cs evs)
      = runPrims ps (j.take w) (s.put (.fake (b.saw s.cfg [Config.preRd] [0, w])) .deasserted
          (evs ++ readFrame s.cfg 0 [w])) := by
  have dummy : ∀ qs evs', runPrims (.rxDummy :: qs) j
        (s.put (.fake { b with scope := some (wordBytes Config.preRd, []) }) .asserted evs')
      = runPrims qs j (s.put (.fake { b with scope := some (wordBytes Config.preRd, wordBytes 0) }) .asserted
          (evs' ++ rxEvents 0)) := by
    intro qs evs'
    refine runPrims_go ?_
    simp [perform, State.rxWord, State.rxByte, State.emit, State.put, Env.byte, Env.observe, backendObserve, backendByte,
      rxEvents, wordBytes, hiByte, loByte]
  have word : ∀ qs evs', runPrims (.rxWord :: qs) j
        (s.put (.fake { b with scope := some (wordBytes Config.preRd, wordBytes 0) }) .asserted evs')
      = runPrims qs (j.take w) (s.put (.fake { b with scope := some (wordBytes Config.preRd, wordBytes 0 ++ wordBytes w) })
          .asserted (evs' ++ rxEvents w)) := by
    intro qs evs'
    have hw' : ∀ sc, backendData s.cfg { b with scope := sc } 0 = some w := fun sc => hw
    refine runPrims_go ?_
    simp [perform, State.rxWord, State.rxByte, State.emit, State.put, Env.byte, Env.observe, backendObserve, backendByte,
      rxEvents, wordBytes, hw', ofBytes_wordBytes, Job.take]
  have close := fake_close (ps := ps) (j := j.take w) (s := s) (b := b) (cs := .asserted)
    (evs := evs ++ [readyEvent s.cfg] ++ [.cs true] ++ txEvents Config.preRd ++ [readyEvent s.cfg] ++ rxEvents 0 ++
      [readyEvent s.cfg] ++ rxEvents w)
    [Config.preRd] [0, w]
  simp only [readDataSeq, List.cons_append, List.nil_append, fake_gate hj, fake_open, fake_tx, dummy, word]
  refine close.trans ?_
  simp [readFrame]

/-! ### What the frames of a register or VCOM sequence do -/

theorem saw_command (c : Cfg) (b : Backend) (code : Word) :
    b.saw c [Config.preCmd, code] [] = { b with cmd := some code, args := [], scope := none } := by
  rw [Backend.saw, classify_words]
  rfl

theorem saw_data (c : Cfg) (b : Backend) (v : Word) :
    b.saw c [Config.preWr, v] [] = { backendWrite c { b with args := b.args ++ [v] } with scope := none } := by
  rw [Backend.saw, classify_words]
  rfl

theorem saw_read (c : Cfg) (b : Backend) (x w : Word) :
    b.saw c [Config.preRd] [x, w] = { backendFrame c b (.ok (.read x [w])) with scope := none } := by
  rw [Backend.saw, classify_words]
  rfl

/-- What `WRITE_REG a, v` leaves in the backend. -/
def Backend.wrote (c : Cfg) (b : Backend) (a v : Word) : Backend :=
  { b with
    regs := regsWrite b.regs a.toNat v
    vcom := if c.cmdRegWr = c.cmdVcom ∧ a = Config.vcomSubSet then v else b.vcom
    cmd := some c.cmdRegWr, args := [a, v], scope := none }

/-- `WRITE_REG` against the backend. -/
theorem fake_writeReg (hj : j.Fresh) (a v : Word) :
    runPrims (writeRegSeq s.cfg a v ++ ps) j (s.put (.fake b) cs evs)
      = runPrims ps j (s.put (.fake (b.wrote s.cfg a v)) .deasserted (evs ++ writeRegEvents s.cfg a v)) := by
  rw [writeRegSeq, List.append_assoc, List.append_assoc, fake_sendCmd hj, fake_sendData hj, fake_sendData hj,
    saw_command, saw_data, saw_data]
  simp [writeRegEvents, backendWrite, Backend.wrote]

/-- What a register read leaves in the backend. -/
def Backend.wasRead (c : Cfg) (b : Backend) (a : Word) : Backend :=
  { b with
    cmd := some c.cmdRegRd, args := [a], scope := none
    busyLeft := if a = c.regDpyStatus then b.busyLeft - 1 else b.busyLeft }

/-- The word a register read gives. -/
def Backend.value (c : Cfg) (b : Backend) (a : Word) : Word :=
  if a = c.regDpyStatus ∧ 0 < b.busyLeft then 1 else regsRead b.regs a.toNat

/-- `READ_REG` against the backend. -/
theorem fake_readReg (hj : j.Fresh) (a : Word) :
    runPrims (readRegSeq s.cfg a ++ ps) j (s.put (.fake b) cs evs)
      = runPrims ps (j.take (b.value s.cfg a)) (s.put (.fake (b.wasRead s.cfg a)) .deasserted
          (evs ++ readRegEvents s.cfg a 0 (b.value s.cfg a))) := by
  have data : backendData s.cfg { b with cmd := some s.cfg.cmdRegRd, args := [a], scope := none } 0
      = some (b.value s.cfg a) := by
    simp only [backendData, Backend.value, if_true]
    split <;> rfl
  rw [readRegSeq, List.append_assoc, List.append_assoc, fake_sendCmd hj, fake_sendData hj, saw_command, saw_data]
  simp only [List.nil_append, backendWrite]
  rw [fake_readData hj data, saw_read]
  simp [readRegEvents, backendFrame, data, Backend.wasRead]

end Sys2Proof.Machine
end

