-- ==== Sys2Proof/Laws/Exec.lean ====
section
/-!
SUPPORT. What executing an instruction can do, said once: it is refused, or `WIDTH_WORDS` answers, or its sequence runs.
-/

namespace Sys2Proof.Machine

open Sys2Proof

/-- The sequence an accepted instruction runs. -/
def bodyOf (s : State) : Instr → List Prim
  | .gate => [.gate]
  | .sendCmd code => sendCmdSeq code
  | .sendData v => sendDataSeq v
  | .sendBuf ws => sendBufSeq ws
  | .readData => readDataSeq
  | .readBuf n => readBufSeq n
  | .sendCmdArgs code ws => sendCmdArgsSeq code ws
  | .readReg a => readRegSeq s.cfg a
  | .writeReg a v => writeRegSeq s.cfg a v
  | .readReg32 a => readReg32Seq s.cfg a
  | .writeReg32 a v => writeReg32Seq s.cfg a v
  | .widthWords _ _ => []
  | .setTma t => setTmaSeq s.cfg t
  | .ldImgStart info => ldImgStartSeq s.cfg info
  | .ldImgAreaStart info a => ldImgAreaStartSeq s.cfg info a
  | .ldImgEnd => ldImgEndSeq s.cfg
  | .hostAreaWrite info a _ _ => hostAreaWriteSeq s.cfg info a
  | .waitDpyReady => waitDpySeq s.cfg false
  | .dpyArea x y w h m => displaySeq s.cfg x y w h m none
  | .dpyAreaBuf x y w h m t => displaySeq s.cfg x y w h m (some t)
  | .dpy1bpp x y w h m t bg fg => dpy1bppSeq s.cfg x y w h m t bg fg
  | .enhanceDrv => enhanceDrvSeq s.cfg
  | .refresh1bpp src x y w h m t k => refresh1bppSeq s.cfg src x y w h m t k
  | .refresh2bpp src x y w h t k => refreshSeq s.cfg s.cfg.pixfmt.bpp2 src x y w h t k
  | .refresh4bpp src x y w h t k => refreshSeq s.cfg s.cfg.pixfmt.bpp4 src x y w h t k
  | .refresh8bpp src x y w h t k => refreshSeq s.cfg s.cfg.pixfmt.bpp8 src x y w h t k
  | .multiFrame1bpp x y w h t k =>
    match s.a2 with
    | some a2 => multiFrameSeq s.cfg a2 x y w h t k
    | none => []
  | .clearRefresh t =>
    match s.di with
    | some di => clearRefreshSeq s.cfg di[0] di[1] t
    | none => []
  | .reset => resetSeq
  | .sysRun => sendCmdSeq s.cfg.cmdSysRun
  | .standby => sendCmdSeq s.cfg.cmdStandby
  | .sleep => sendCmdSeq s.cfg.cmdSleep
  | .getSysInfo => getSysInfoSeq s.cfg
  | .readVcom => readVcomSeq s.cfg
  | .writeVcom v => writeVcomSeq s.cfg v
  | .initializeDevice v => initializeSeq s.cfg v
  | .shutdown => shutdownSeq
  | .frameFc c => sendCmdSeq c
  | .frameFw1 d => sendDataSeq d
  | .frameFwn ds => sendBufSeq ds
  | .frameFr1 => readDataSeq
  | .frameFrn n => readBufSeq n
  | .wordLdHeader e p q => sendDataSeq (headerWord e p q)

/-- Which of the words received is the result of an instruction (30_encoding R99). -/
def retOf : Instr → Ret
  | .readData | .readReg _ | .enhanceDrv | .readVcom | .frameFr1 => .word
  | .readReg32 _ => .dword
  | .readBuf _ | .getSysInfo | .frameFrn _ => .words
  | .initializeDevice _ => .info
  | _ => .nothing

/-- The job an accepted instruction runs. -/
def jobOf (s : State) (i : Instr) : Job :=
  { Job.start i (retOf i) (bodyOf s i) with closeOnFault := opensSession i }

/-- An accepted request runs its job; any other is refused. -/
theorem request_cases (s : State) (rs : List (Option Refusal)) (j : Job) :
    (∃ r, s.request rs j = .next (s.refuse r)) ∨
    (s.seq = .idle ∧ firstRefusal rs = none ∧ s.request rs j = .next (runPrims j.todo j { s with resp := none })) := by
  unfold State.request State.busyCheck
  cases hs : s.seq with
  | running j' => exact .inl ⟨.busy, rfl⟩
  | idle =>
    cases hr : firstRefusal rs with
    | some r => exact .inl ⟨r, by simp [firstRefusal, hr]⟩
    | none => exact .inr ⟨rfl, rfl, by simp [firstRefusal, hr]⟩

theorem openRequest_cases (s : State) (rs : List (Option Refusal)) (j : Job) :
    (∃ r, s.openRequest rs j = .next (s.refuse r)) ∨
    (s.seq = .idle ∧ s.isOpen = true ∧ firstRefusal rs = none ∧
      s.openRequest rs j = .next (runPrims j.todo j { s with resp := none })) := by
  rcases request_cases s (s.openCheck :: rs) j with h | ⟨hi, hr, h⟩
  · exact .inl h
  · cases ho : s.isOpen <;> simp_all [State.openCheck, firstRefusal, State.openRequest]

/-- What `exec` answers: the refusal, the answer of `WIDTH_WORDS`, or the run of the instruction's sequence by a fresh
job. -/
theorem exec_cases (i : Instr) (s : State) :
    (∃ r, exec i s = .next (s.refuse r)) ∨
    (∃ w b, i = .widthWords w b ∧ s.seq = .idle ∧
      exec i s = .next { s with resp := some (.ok (.nat (wordsPerRow w b))) }) ∨
    (s.seq = .idle ∧ s.isOpen = (!opensSession i) ∧
      exec i s = .next (runPrims (bodyOf s i) (jobOf s i) { s with resp := none })) := by
  have key : ∀ rs, opensSession i = false → exec i s = s.openRequest rs (Job.start i (retOf i) (bodyOf s i)) →
      (∃ r, exec i s = .next (s.refuse r)) ∨
      (∃ w b, i = .widthWords w b ∧ s.seq = .idle ∧
        exec i s = .next { s with resp := some (.ok (.nat (wordsPerRow w b))) }) ∨
      (s.seq = .idle ∧ s.isOpen = (!opensSession i) ∧
        exec i s = .next (runPrims (bodyOf s i) (jobOf s i) { s with resp := none })) := by
    intro rs hn he
    rcases openRequest_cases s rs (Job.start i (retOf i) (bodyOf s i)) with h | ⟨hi, ho, -, h⟩
    · exact .inl (he ▸ h)
    · exact .inr (.inr ⟨hi, by simp [ho, hn], by rw [he, h, jobOf, hn]; rfl⟩)
  cases i with
  | widthWords w b =>
    simp only [exec, execWidthWords, State.answer, State.busyCheck]
    cases hs : s.seq with
    | running j => exact .inl ⟨.busy, rfl⟩
    | idle => exact .inr (.inl ⟨w, b, rfl, rfl, rfl⟩)
  | initializeDevice v =>
    rcases request_cases s [s.closedCheck]
      { Job.start (.initializeDevice v) .info (initializeSeq s.cfg v) with closeOnFault := true } with h | ⟨hi, hr, h⟩
    · exact .inl h
    · refine .inr (.inr ⟨hi, ?_, h⟩)
      cases ho : s.isOpen <;> simp_all [State.closedCheck, firstRefusal, opensSession]
  | multiFrame1bpp x y w h t k =>
    rcases Option.eq_none_or_eq_some s.a2 with ha | ⟨a2, ha⟩
    · exact key [some .unwrittenRegister] rfl (by simp only [exec, execMultiFrame1bpp, bodyOf, ha]; rfl)
    · exact key [] rfl (by simp only [exec, execMultiFrame1bpp, bodyOf, ha]; rfl)
  | clearRefresh t =>
    rcases Option.eq_none_or_eq_some s.di with hd | ⟨di, hd⟩
    · exact key [some .unwrittenRegister] rfl (by simp only [exec, execClearRefresh, bodyOf, hd]; rfl)
    · exact key [emptyCheck (clearBuf di[0] di[1]).length] rfl
        (by simp only [exec, execClearRefresh, bodyOf, hd]; rfl)
  | _ => exact key _ rfl rfl

/-- A step with an operation in progress goes on with it. -/
theorem step_running {s : State} {j : Job} (h : s.seq = .running j) :
    step s = .next (runPrims j.todo j { s with seq := .idle }) := by simp [step, fetch, h, resumeJob]

/-- A run of one step more. -/
theorem run_next (M : Host.Core) (n : Nat) {s t : M.State} (h : M.step s = .next t) : M.run (n + 1) s = M.run n t := by
  simp [Host.Core.run, h]

/-- `exec_cases` for a step: nothing changes, an item is taken off the port and executed or refused, or the operation in
progress is resumed. -/
theorem step_cases {s t : State} (h : step s = .next t) :
    (s.seq = .idle ∧ t = s) ∨
    (∃ rest, s.seq = .idle ∧ t = ({ s with port := rest } : State).refuse .unknownOp) ∨
    (∃ rest i, s.seq = .idle ∧ exec i { s with port := rest } = .next t) ∨
    (∃ j, s.seq = .running j ∧ t = runPrims j.todo j { s with seq := .idle }) := by
  unfold step fetch at h
  cases hs : s.seq with
  | running j => simp only [hs] at h; cases h; exact .inr (.inr (.inr ⟨j, rfl, rfl⟩))
  | idle =>
    simp only [hs] at h
    cases hp : s.port with
    | nil => simp only [hp] at h; cases h; exact .inl ⟨rfl, rfl⟩
    | cons item rest =>
      simp only [hp] at h
      cases hd : decode item with
      | ok i => simp only [hd] at h; exact .inr (.inr (.inl ⟨rest, i, rfl, h⟩))
      | error why =>
        simp only [hd] at h
        cases why <;> simp only [reduceCtorEq] at h
        cases h
        exact .inr (.inl ⟨rest, rfl, rfl⟩)

end Sys2Proof.Machine
end

