-- ==== Sys2Proof/Laws/Compose.lean ====
section
/-!
SUPPORT. A composite operation beside its parts (30_encoding R102): its job, which has received words before the part
began, performs each primitive of a part as the part's own job does, so it waits, faults and goes on alike.
-/

namespace Sys2Proof.Machine

open Sys2Proof

/-! ### One primitive -/

/-- The words a job that has received `n` has received after `ps`, if every primitive looks back no further than those,
and a timeout kept back is raised: none if not. -/
def wordsAfter : Nat → List Prim → Option Nat
  | n, [] => some n
  | n, p :: ps =>
    match p with
    | .gate | .cs _ | .tx _ | .rxDummy | .rst _ | .sleep _ | .raiseLate => wordsAfter n ps
    | .rxWord => wordsAfter (n + 1) ps
    | .txMasked _ => if n = 0 then none else wordsAfter n ps
    | .dpyTest defer => if n = 0 ∨ (defer = true ∧ .raiseLate ∉ ps) then none else wordsAfter (n - 1) ps
    | .tmaCheck _ => if n < 2 then none else wordsAfter n ps
    | .claim | .release | .storeInfo | .endIfVcom _ => none

/-- The loop counters of a job are zero, and no timeout is kept back, unless what is left of it deals with them. -/
structure Job.Settles (j : Job) (todo : List Prim) : Prop where
  gate : j.gatePolls = 0 ∨ .gate ∈ todo
  display : j.dpyPolls = 0 ∨ ∃ d, .dpyTest d ∈ todo
  onTime : j.late = false ∨ .raiseLate ∈ todo

/-- The job of a composite operation beside the job of one of its parts: the same but for the words received before the
part. -/
structure Job.Carries (pre : List Word) (j k : Job) : Prop where
  got : k.got = pre ++ j.got
  gate : k.gatePolls = j.gatePolls
  display : k.dpyPolls = j.dpyPolls
  late : k.late = j.late
  keeps : j.closeOnFault = false ∧ k.closeOnFault = false

theorem last_append {pre : List Word} {j k : Job} (h : k.got = pre ++ j.got) (hn : j.got.length ≠ 0) : k.last = j.last := by
  obtain ⟨w, hw⟩ : ∃ w, j.got.getLast? = some w := by
    cases e : j.got with
    | nil => simp [e] at hn
    | cons a l => exact ⟨_, List.getLast?_eq_some_getLast (by simp)⟩
  simp [Job.last, h, List.getLastD_eq_getLast?, List.getLast?_append, hw]

theorem getD_from_end {pre : List Word} {j k : Job} (h : k.got = pre ++ j.got) {n : Nat} (hn : n ≤ j.got.length) :
    k.got.getD (k.got.length - n) 0 = j.got.getD (j.got.length - n) 0 := by
  have e : k.got.length - n = pre.length + (j.got.length - n) := by simp [h]; omega
  rw [e, h, List.getD_append_right _ _ _ _ (by omega)]
  congr 1; omega

/-- A primitive that is no loop test leaves them as they stand. -/
theorem Job.Settles.tail {j : Job} {p : Prim} {ps : List Prim} (h : j.Settles (p :: ps)) (h1 : p ≠ .gate)
    (h2 : ∀ d, p ≠ .dpyTest d) (h3 : p ≠ .raiseLate) : j.Settles ps := by
  obtain ⟨a, b, c⟩ := h
  refine ⟨?_, ?_, ?_⟩
  · exact a.imp_right (fun m => (List.mem_cons.mp m).resolve_left (fun e => h1 e.symm))
  · exact b.imp_right (fun ⟨d, m⟩ => ⟨d, (List.mem_cons.mp m).resolve_left (fun e => h2 d e.symm)⟩)
  · exact c.imp_right (fun m => (List.mem_cons.mp m).resolve_left (fun e => h3 e.symm))

/-- The flows of one primitive in the job of a part and in the job of the composite: they go on, wait, or fault alike,
with `ps` still to do in the part, after which it has received `m` words. -/
inductive Alike (pre : List Word) (m : Nat) (ps : List Prim) (j k : Job) (s : State) : Flow → Flow → Prop where
  | go {j' k' : Job} {s' : State} (carries : j'.Carries pre k') (ret : j'.ret = j.ret ∧ k'.ret = k.ret)
      (words : wordsAfter j'.got.length ps = some m) (settles : j'.Settles ps)
      (still : s'.seq = s.seq ∧ s'.resp = s.resp) : Alike pre m ps j k s (.go j' s') (.go k' s')
  | hold {again : List Prim} {j' k' : Job} {s' : State} (carries : j'.Carries pre k')
      (ret : j'.ret = j.ret ∧ k'.ret = k.ret) (words : wordsAfter j'.got.length (again ++ ps) = some m)
      (settles : j'.Settles (again ++ ps)) (still : s'.resp = s.resp) :
      Alike pre m ps j k s (.hold again j' s') (.hold again k' s')
  | raise {f : Fault} {j' k' : Job} {s' : State} (keeps : j'.closeOnFault = false ∧ k'.closeOnFault = false) :
      Alike pre m ps j k s (.raise f j' s') (.raise f k' s')

/-- One primitive of a part, performed by the part's job and by the composite's. -/
theorem perform_alike {pre : List Word} {j k : Job} {p : Prim} {ps : List Prim} {m : Nat} {s : State}
    (h : j.Carries pre k) (hw : wordsAfter j.got.length (p :: ps) = some m) (hs : j.Settles (p :: ps)) :
    Alike pre m ps j k s (perform p j s) (perform p k s) := by
  have hk := h
  obtain ⟨hg, hp, hd, hl, hc, hc'⟩ := h
  have on : ∀ {s'}, perform p j s = .go j s' → perform p k s = .go k s' → wordsAfter j.got.length ps = some m →
      j.Settles ps → s'.seq = s.seq → s'.resp = s.resp →
      Alike pre m ps j k s (perform p j s) (perform p k s) := fun e e' hw hs hq hr => by
    rw [e, e']; exact .go hk ⟨rfl, rfl⟩ hw hs ⟨hq, hr⟩
  cases p with
  | gate =>
    have hs' : j.dpyPolls = 0 ∨ ∃ d, .dpyTest d ∈ ps := by simpa using hs.display
    have hs'' : j.late = false ∨ .raiseLate ∈ ps := by simpa using hs.onTime
    rcases pollGate_cases j s with ⟨hr, e⟩ | ⟨hr, hb, e⟩ | ⟨hr, hb, e⟩
    · have e' : pollGate k s = .go { k with gatePolls := 0 } s.sample.2 := by simp [pollGate, hr]
      rw [perform, perform, e, e']
      exact .go ⟨hg, rfl, hd, hl, hc, hc'⟩ ⟨rfl, rfl⟩ hw ⟨.inl rfl, hs', hs''⟩ (by simp)
    · have e' : pollGate k s = .raise (.waitTimeout .gate) k
          (if s.sample.2.cs = .asserted then s.sample.2.setCs false else s.sample.2) := by simp [pollGate, hr, hp, hb]
      rw [perform, perform, e, e']
      exact .raise ⟨hc, hc'⟩
    · have e' : pollGate k s = .hold [.gate] { k with gatePolls := j.gatePolls + 1 } s.sample.2.backOff := by
        simp [pollGate, hr, hp, hb]
      rw [perform, perform, e, e']
      exact .hold ⟨hg, rfl, hd, hl, hc, hc'⟩ ⟨rfl, rfl⟩ hw
        ⟨.inr (by simp), by simpa using hs', by simpa using hs''⟩ (by simp)
  | txMasked b =>
    simp only [wordsAfter] at hw
    split at hw
    · cases hw
    · rename_i hn
      exact on rfl (by simp only [perform, last_append hg hn]) hw (hs.tail nofun nofun nofun) rfl rfl
  | rxWord =>
    have hs' := hs.tail nofun nofun nofun
    exact .go ⟨by simp [hg], hp, hd, hl, hc, hc'⟩ ⟨rfl, rfl⟩ (by simpa [wordsAfter] using hw)
      ⟨hs'.gate, hs'.display, hs'.onTime⟩ ⟨rfl, rfl⟩
  | dpyTest defer =>
    have h1 : j.gatePolls = 0 ∨ .gate ∈ ps := by simpa using hs.gate
    have h3 : j.late = false ∨ .raiseLate ∈ ps := by simpa using hs.onTime
    simp only [wordsAfter] at hw
    split at hw
    · cases hw
    · rename_i hn
      rw [not_or] at hn
      have hlast := last_append hg hn.1
      have hne : j.got ≠ [] := fun e => hn.1 (by simp [e])
      have hdrop : k.got.dropLast = pre ++ j.got.dropLast := by rw [hg, List.dropLast_append_of_ne_nil hne]
      have hw' : wordsAfter j.got.dropLast.length ps = some m := by simpa using hw
      rcases pollDisplay_cases defer j s with ⟨hb, e⟩ | ⟨hb, hh, hdf, e⟩ | ⟨hb, hh, hdf, e⟩ | ⟨hb, hh, e⟩
      · have e' : pollDisplay defer k s = .go { k with got := k.got.dropLast, dpyPolls := 0 } s := by
          simp [pollDisplay, hlast, hb]
        rw [perform, perform, e, e']
        exact .go ⟨hdrop, hp, rfl, hl, hc, hc'⟩ ⟨rfl, rfl⟩ hw' ⟨h1, .inl rfl, h3⟩ ⟨rfl, rfl⟩
      · have e' : pollDisplay defer k s = .go { k with got := k.got.dropLast, dpyPolls := 0, late := true } s := by
          simp [pollDisplay, hlast, hb, hd, hh, hdf]
        rw [perform, perform, e, e']
        exact .go ⟨hdrop, hp, rfl, rfl, hc, hc'⟩ ⟨rfl, rfl⟩ hw' ⟨h1, .inl rfl, .inr (by simpa [hdf] using hn.2)⟩
          ⟨rfl, rfl⟩
      · have e' : pollDisplay defer k s = .raise (.waitTimeout .display) { k with got := k.got.dropLast } s := by
          simp [pollDisplay, hlast, hb, hd, hh, hdf]
        rw [perform, perform, e, e']
        exact .raise ⟨hc, hc'⟩
      · have e' : pollDisplay defer k s = .hold (waitDpySeq s.cfg defer)
            { k with got := k.got.dropLast, dpyPolls := j.dpyPolls + 1 } s.backOff := by
          simp [pollDisplay, hlast, hb, hd, hh]
        rw [perform, perform, e, e']
        refine .hold ⟨hdrop, hp, rfl, hl, hc, hc'⟩ ⟨rfl, rfl⟩ ?_ ⟨.inr ?_, .inr ⟨defer, ?_⟩, ?_⟩ (by simp)
        · simp [waitDpySeq, readRegSeq, sendCmdSeq, sendDataSeq, readDataSeq, wordsAfter]
          exact ⟨by simpa using hn.2, hw⟩
        · simp [waitDpySeq, readRegSeq, sendCmdSeq]
        · simp [waitDpySeq]
        · exact h3.imp_right (fun m => List.mem_append_right _ m)
  | raiseLate =>
    have h1 : j.gatePolls = 0 ∨ .gate ∈ ps := by simpa using hs.gate
    have h2 : j.dpyPolls = 0 ∨ ∃ d, .dpyTest d ∈ ps := by simpa using hs.display
    cases hj : j.late with
    | true =>
      simp only [perform, hl, hj, if_true]
      exact .raise ⟨hc, hc'⟩
    | false => exact on (by simp [perform, hj]) (by simp [perform, hl, hj]) hw ⟨h1, h2, .inl hj⟩ rfl rfl
  | tmaCheck t =>
    simp only [wordsAfter] at hw
    split at hw
    · cases hw
    · rename_i hn
      have e : ∀ i : Job, perform (.tmaCheck t) i s =
          if tmaDiffers t (readBackOf s.cfg.tmaOrder (i.got.getD (i.got.length - 2) 0) (i.got.getD (i.got.length - 1) 0))
              && s.cfg.tmaMismatchFault then
            .raise (.tmaMismatch t (readBackOf s.cfg.tmaOrder (i.got.getD (i.got.length - 2) 0)
                (i.got.getD (i.got.length - 1) 0))) i
              (s.noteMismatch (tmaDiffers t (readBackOf s.cfg.tmaOrder (i.got.getD (i.got.length - 2) 0)
                (i.got.getD (i.got.length - 1) 0))))
          else .go i (s.noteMismatch (tmaDiffers t (readBackOf s.cfg.tmaOrder (i.got.getD (i.got.length - 2) 0)
                (i.got.getD (i.got.length - 1) 0)))) := fun _ => rfl
      have ek := e k
      rw [getD_from_end hg (n := 2) (by omega), getD_from_end hg (n := 1) (by omega)] at ek
      have ej := e j
      split at ej
      · rw [if_pos ‹_›] at ek
        rw [ej, ek]
        exact .raise ⟨hc, hc'⟩
      · rw [if_neg ‹_›] at ek
        exact on ej ek hw (hs.tail nofun nofun nofun) rfl rfl
  | claim => cases hw
  | release => cases hw
  | storeInfo => cases hw
  | endIfVcom v => cases hw
  | _ => exact on rfl rfl hw (hs.tail nofun nofun nofun) rfl rfl

/-! ### A run and its waiting steps -/

/-- A run of a part by its own job, and of the part with `qs` after it by the composite's job: both come to the end of
the part, both wait in it, or both end in the same fault. -/
inductive RunsAlike (pre : List Word) (m : Nat) (qs : List Prim) (j k : Job) : State → State → Prop where
  | ends {j' k' : Job} {s' : State} (carries : j'.Carries pre k') (ret : j'.ret = j.ret ∧ k'.ret = k.ret)
      (words : j'.got.length = m) (settles : j'.Settles []) (still : s'.seq = .idle ∧ s'.resp = none) :
      RunsAlike pre m qs j k (finish j' s') (runPrims qs k' s')
  | waits {todo : List Prim} {j' k' : Job} {s' : State} (carries : j'.Carries pre k')
      (ret : j'.ret = j.ret ∧ k'.ret = k.ret) (words : wordsAfter j'.got.length todo = some m)
      (settles : j'.Settles todo) (still : s'.resp = none) :
      RunsAlike pre m qs j k { s' with seq := .running { j' with todo := todo } }
        { s' with seq := .running { k' with todo := todo ++ qs } }
  | faults {f : Fault} {s' : State} :
      RunsAlike pre m qs j k { s' with seq := .idle, resp := some (.fault f) } { s' with seq := .idle, resp := some (.fault f) }

theorem runs_alike {pre : List Word} {m : Nat} (qs : List Prim) (ps : List Prim) {j k : Job} {s : State}
    (h : j.Carries pre k) (hw : wordsAfter j.got.length ps = some m) (hs : j.Settles ps)
    (hi : s.seq = .idle ∧ s.resp = none) : RunsAlike pre m qs j k (runPrims ps j s) (runPrims (ps ++ qs) k s) := by
  suffices H : ∀ j0 k0 : Job, j.ret = j0.ret ∧ k.ret = k0.ret →
      RunsAlike pre m qs j0 k0 (runPrims ps j s) (runPrims (ps ++ qs) k s) from H j k ⟨rfl, rfl⟩
  intro j0 k0 hr
  induction ps generalizing j k s with
  | nil => exact .ends h hr (by simpa [wordsAfter] using hw) hs hi
  | cons p ps ih =>
    have ha := perform_alike h hw hs (s := s)
    rw [List.cons_append, runPrims_cons, runPrims_cons]
    generalize perform p j s = a at ha ⊢
    generalize perform p k s = b at ha ⊢
    cases ha with
    | go c r w st q => exact ih c w st ⟨q.1.trans hi.1, q.2.trans hi.2⟩ ⟨r.1.trans hr.1, r.2.trans hr.2⟩
    | hold c r w st q =>
      simp only [← List.append_assoc]
      exact .waits c ⟨r.1.trans hr.1, r.2.trans hr.2⟩ w st (q.trans hi.2)
    | raise c =>
      simp only [raiseFault, c.1, c.2, Bool.false_and]
      exact .faults

/-- A part that ends, after `n` waiting steps, ends in the composite after as many: with a result, where the composite
goes on with `qs`; with a fault, where it has ended too. -/
theorem part_ends {pre : List Word} {m : Nat} (qs : List Prim) {t : State} {r : Response} (n : Nat) :
    ∀ {ps : List Prim} {j k : Job} {s : State}, j.Carries pre k → wordsAfter j.got.length ps = some m → j.Settles ps →
      s.seq = .idle ∧ s.resp = none → goesOnTo n (runPrims ps j s) t → t.seq = .idle → t.resp = some r →
      (∃ j' k' : Job, r = .ok (j.ret.value j'.got) ∧ j'.got.length = m ∧ j'.Carries pre k' ∧ j'.Settles [] ∧
        k'.ret = k.ret ∧ goesOnTo n (runPrims (ps ++ qs) k s) (runPrims qs k' { t with resp := none })) ∨
      (∃ f, r = .fault f ∧ goesOnTo n (runPrims (ps ++ qs) k s) t) := by
  induction n with
  | zero =>
    rintro ps j k s h hw hs hi rfl hq hr
    have ha := runs_alike qs ps h hw hs hi
    generalize runPrims ps j s = a at ha hq hr ⊢
    generalize runPrims (ps ++ qs) k s = b at ha ⊢
    cases ha with
    | @ends j' k' s' c r w st q =>
      refine .inl ⟨j', k', ?_, w, c, st, r.2, ?_⟩
      · rw [← r.1]; exact (Option.some.inj hr).symm
      · show _ = _
        congr 1
        cases s'
        obtain ⟨rfl, rfl⟩ := q
        rfl
    | waits => cases hq
    | faults => exact .inr ⟨_, (Option.some.inj hr).symm, rfl⟩
  | succ n ih =>
    rintro ps j k s h hw hs hi ⟨hne, u, hu, hg⟩ hq hr
    have ha := runs_alike qs ps h hw hs hi
    generalize runPrims ps j s = a at ha hne hu
    generalize runPrims (ps ++ qs) k s = b at ha ⊢
    cases ha with
    | ends => exact absurd rfl hne
    | @waits todo j' k' s' c rt w st q =>
      rw [step_running rfl] at hu
      cases hu
      have := ih (k := { k' with todo := todo ++ qs }) (j := { j' with todo := todo }) (ps := todo)
        (s := { s' with seq := .idle }) ⟨c.got, c.gate, c.display, c.late, c.keeps⟩ w ⟨st.gate, st.display, st.onTime⟩
        ⟨rfl, q⟩ hg hq hr
      have hb : step { s' with seq := .running { k' with todo := todo ++ qs } } = .next
          (runPrims (todo ++ qs) { k' with todo := todo ++ qs } { s' with seq := .idle }) :=
        step_running (s := { s' with seq := .running { k' with todo := todo ++ qs } }) rfl
      rcases this with ⟨j2, k2, h1, h2, h3, h4, h5, h6⟩ | ⟨f, h1, h2⟩
      · exact .inl ⟨j2, k2, by rw [← rt.1]; exact h1, h2, h3, h4, h5.trans rt.2, nofun, _, hb, h6⟩
      · exact .inr ⟨f, h1, nofun, _, hb, h2⟩
    | faults => exact absurd rfl hne

/-! ### Steps that go on -/

theorem goesOnTo_trans {n m : Nat} {a b d : State} (h : goesOnTo n a b) (h' : goesOnTo m b d) : goesOnTo (n + m) a d := by
  induction n generalizing a with
  | zero => obtain rfl := h; simpa using h'
  | succ n ih =>
    obtain ⟨hn, u, hu, hg⟩ := h
    rw [Nat.succ_add]
    exact ⟨hn, u, hu, ih hg⟩

theorem goesOnTo_cfg {n : Nat} {s t : State} (h : goesOnTo n s t) : t.cfg = s.cfg := by
  induction n generalizing s with
  | zero => rw [h]
  | succ n ih =>
    obtain ⟨hn, u, hu, hg⟩ := h
    cases hs : s.seq with
    | idle => exact absurd hs hn
    | running j =>
      rw [step_running hs] at hu
      cases hu
      exact (ih hg).trans (runPrims_frame _ _ _).1

/-! ### The parts of a composite operation -/

/-- `p` is an operation whose sequence is `body`, from which it receives `m` words. -/
structure PartOf (c : Cfg) (p : Instr) (body : List Prim) (m : Nat) : Prop where
  seq : ∀ u : State, u.cfg = c → bodyOf u p = body
  plain : opensSession p = false
  runs : ∀ w b, p ≠ .widthWords w b
  words : wordsAfter 0 body = some m

/-- The sequences of the parts, one after another, and the words each receives. -/
inductive PartsOf (c : Cfg) : List Instr → List Prim → List Nat → Prop where
  | nil : PartsOf c [] [] []
  | cons {p : Instr} {ps : List Instr} {body rest : List Prim} {m : Nat} {ms : List Nat} (h : PartOf c p body m)
      (hs : PartsOf c ps rest ms) : PartsOf c (p :: ps) (body ++ rest) (m :: ms)

theorem PartsOf.one {c : Cfg} {p : Instr} {body : List Prim} {m : Nat} (h : PartOf c p body m) :
    PartsOf c [p] body [m] := by simpa using PartsOf.cons h .nil

theorem PartsOf.split {c : Cfg} {p : Instr} {before after : List Instr} {body : List Prim} {ms : List Nat}
    (h : PartsOf c (before ++ p :: after) body ms) :
    ∃ b1 b2 b3 m1 m2, PartsOf c before b1 m1 ∧ PartOf c p b2 m2 ∧ body = b1 ++ (b2 ++ b3) := by
  induction before generalizing body ms with
  | nil =>
    cases h with
    | cons h hs => exact ⟨[], _, _, [], _, .nil, h, rfl⟩
  | cons q qs ih =>
    cases h with
    | cons h hs =>
      obtain ⟨b1, b2, b3, m1, m2, h1, h2, rfl⟩ := ih hs
      exact ⟨_, b2, b3, _, m2, .cons h h1, h2, by simp⟩

/-- A part that ends, but not by being refused, has run its sequence. -/
theorem part_runs {c : Cfg} {p : Instr} {body : List Prim} {m : Nat} {s t : State} {r : Response} (h : PartOf c p body m)
    (hc : s.cfg = c) (hi : s.seq = .idle) (he : endsIn p s t r) (hr : ∀ why, r ≠ .refused why) :
    t.cfg = c ∧ t.seq = .idle ∧ t.resp = some r ∧
      ∃ n, goesOnTo n (runPrims body (jobOf s p) { s with resp := none }) t := by
  obtain ⟨n, u, hu, hg, hq, hresp⟩ := he
  rcases exec_cases p s with ⟨why, e⟩ | ⟨w, b, e, -, -⟩ | ⟨-, -, e⟩
  · rw [e] at hu
    cases hu
    exfalso
    cases n with
    | zero => obtain rfl := hg; exact hr why (Option.some.inj hresp).symm
    | succ n =>
      obtain ⟨hn, v, hv, hg⟩ := hg
      exact hn hi
  · exact absurd e (h.runs w b)
  · rw [e, h.seq s hc] at hu
    cases hu
    exact ⟨(goesOnTo_cfg hg).trans ((runPrims_frame _ _ _).1.trans hc), hq, hresp, n, hg⟩

/-- The job of a part beside that of the composite when the part begins. -/
theorem carries_start {c : Cfg} {p : Instr} {body : List Prim} {m : Nat} (h : PartOf c p body m) (s : State) {k : Job}
    (hk : k.Settles []) (hk' : k.closeOnFault = false) : (jobOf s p).Carries k.got k :=
  ⟨by simp [jobOf, Job.start], by simpa [jobOf, Job.start] using hk.gate,
    by simpa [jobOf, Job.start] using hk.display, by simpa [jobOf, Job.start] using hk.onTime, by simp [jobOf, h.plain],
    hk'⟩

/-- Parts that end ok one after another end in the composite after as many waiting steps: it goes on with `qs`, having
received what they received. -/
theorem parts_end {c : Cfg} {ps : List Instr} {body : List Prim} {ms : List Nat} (h : PartsOf c ps body ms)
    (qs : List Prim) : ∀ {s t : State} {vs : List Value} {k : Job}, s.cfg = c → s.seq = .idle → runsTo ps s t vs →
      k.Settles [] → k.closeOnFault = false →
      t.cfg = c ∧ t.seq = .idle ∧ ∃ n k' gs, goesOnTo n (runPrims (body ++ qs) k { s with resp := none })
          (runPrims qs k' { t with resp := none }) ∧
        k'.Settles [] ∧ k'.closeOnFault = false ∧ k'.ret = k.ret ∧ k'.got = k.got ++ gs.flatten ∧
        vs = List.zipWith (fun p g => (retOf p).value g) ps gs ∧ gs.map List.length = ms := by
  induction h with
  | nil =>
    rintro s t vs k hc hi ⟨rfl, rfl⟩ hk hk'
    exact ⟨hc, hi, 0, k, [], rfl, hk, hk', rfl, by simp, rfl, rfl⟩
  | @cons p ps body rest m ms hp hps ih =>
    rintro s t vs k hc hi ⟨u, v, vs', rfl, he, hr⟩ hk hk'
    obtain ⟨huc, huq, hur, n, hg⟩ := part_runs hp hc hi he nofun
    have hcarry := carries_start hp s hk hk'
    rcases part_ends (s := { s with resp := none }) (rest ++ qs) n hcarry hp.words ⟨.inl rfl, .inl rfl, .inl rfl⟩ ⟨hi, rfl⟩ hg huq hur with
      ⟨j', k', hv, hl, hcar, hst, hret, hgo⟩ | ⟨f, hv, -⟩
    · have hset : k'.Settles [] := by
        obtain ⟨a, b, c⟩ := hst
        exact ⟨by rw [hcar.gate]; exact a, by rw [hcar.display]; exact b, by rw [hcar.late]; exact c⟩
      obtain ⟨htc, htq, n', k'', gs, hgo', h1, h2, h3, h4, h5, h6⟩ := ih huc huq hr hset hcar.keeps.2
      refine ⟨htc, htq, n + n', k'', j'.got :: gs, ?_, h1, h2, h3.trans hret, ?_, ?_, ?_⟩
      · rw [List.append_assoc]; exact goesOnTo_trans hgo hgo'
      · rw [h4, hcar.got]; simp
      · simp only [List.zipWith_cons_cons, h5]
        congr 1
        exact Response.ok.inj hv
      · simp [hl, h6]
    · cases hv

/-- A part that faults after parts that ended ok ends the composite in the same fault. -/
theorem parts_fault {c : Cfg} {before after : List Instr} {p : Instr} {body : List Prim} {ms : List Nat}
    (h : PartsOf c (before ++ p :: after) body ms) {s u t : State} {vs : List Value} {f : Fault} {k : Job}
    (hc : s.cfg = c) (hi : s.seq = .idle) (hr : runsTo before s u vs) (he : endsIn p u t (.fault f))
    (hk : k.Settles []) (hk' : k.closeOnFault = false) :
    t.seq = .idle ∧ t.resp = some (.fault f) ∧ ∃ n, goesOnTo n (runPrims body k { s with resp := none }) t := by
  obtain ⟨b1, b2, b3, m1, m2, h1, h2, rfl⟩ := h.split
  obtain ⟨huc, hui, n, k', gs, hgo, hset, hkeep, -, hgot, -, -⟩ := parts_end h1 (b2 ++ b3) hc hi hr hk hk'
  obtain ⟨-, htq, htr, n', hg⟩ := part_runs h2 huc hui he nofun
  have hcarry := carries_start h2 u hset hkeep
  rcases part_ends (s := { u with resp := none }) b3 n' hcarry h2.words ⟨.inl rfl, .inl rfl, .inl rfl⟩ ⟨hui, rfl⟩ hg htq htr with
    ⟨j', k'', hv, -⟩ | ⟨f', -, hgo'⟩
  · cases hv
  · exact ⟨htq, htr, n + n', goesOnTo_trans hgo hgo'⟩

/-- A part that is refused whenever it is issued ends no sequence ok. -/
theorem refused_part {p : Instr} {parts : List Instr} {s t : State} {vs : List Value} (h : runsTo parts s t vs)
    (hi : s.seq = .idle) (hp : p ∈ parts) (href : ∀ u, ∃ r, exec p u = .next (u.refuse r)) : False := by
  induction parts generalizing s vs with
  | nil => cases hp
  | cons q qs ih =>
    obtain ⟨u, v, vs', rfl, he, hr⟩ := h
    obtain ⟨n, w, hw, hg, hq, hresp⟩ := he
    rcases List.mem_cons.mp hp with rfl | hp
    · obtain ⟨r, e⟩ := href s
      rw [e] at hw
      cases hw
      cases n with
      | zero => obtain rfl := hg; cases hresp
      | succ n => exact hg.1 hi
    · exact ih hr hq hp

/-! ### The words each sequence receives -/

theorem wordsAfter_append (n : Nat) (ps qs : List Prim) (m : Nat) (h : wordsAfter n ps = some m) :
    wordsAfter n (ps ++ qs) = wordsAfter m qs := by
  induction ps generalizing n with
  | nil => simp only [wordsAfter] at h; cases h; rfl
  | cons p ps ih =>
    cases p <;> simp only [List.cons_append, wordsAfter] at h ⊢
    all_goals first
      | exact ih _ h
      | cases h
      | skip
    · split at h
      · cases h
      · rw [if_neg ‹_›]; exact ih _ h
    · split at h
      · cases h
      · rename_i hn
        rw [if_neg (by rw [List.mem_append]; tauto)]; exact ih _ h
    · split at h
      · cases h
      · rw [if_neg ‹_›]; exact ih _ h

theorem words_payload (ws : List Word) (n : Nat) : wordsAfter n (payloadSeq ws) = some n := by
  induction ws with
  | nil => rfl
  | cons w ws ih => exact ih

theorem words_receive (k n : Nat) : wordsAfter n (receiveSeq k) = some (n + k) := by
  induction k generalizing n with
  | zero => rfl
  | succ k ih => exact (ih (n + 1)).trans (by congr 1; omega)

theorem words_append {n m r : Nat} {a b : List Prim} (h : wordsAfter n a = some m) (h' : wordsAfter m b = some r) :
    wordsAfter n (a ++ b) = some r := (wordsAfter_append n a b m h).trans h'

theorem words_sendBuf (ws : List Word) (n : Nat) : wordsAfter n (sendBufSeq ws) = some n :=
  words_append (words_append rfl (words_payload ws n)) rfl

theorem words_readBuf (k n : Nat) : wordsAfter n (readBufSeq k) = some (n + k) :=
  words_append (words_append rfl (words_receive k n)) rfl

theorem words_args (code : Word) (ws : List Word) (n : Nat) : wordsAfter n (sendCmdArgsSeq code ws) = some n :=
  words_append (m := n) rfl (words_sendBuf ws n)

theorem words_display (c : Cfg) (x y w h mode : Word) (a : Option DWord) (n : Nat) :
    wordsAfter n (displaySeq c x y w h mode a) = some n := by cases a <;> exact words_args _ _ n

theorem words_setTma (c : Cfg) (t : DWord) : wordsAfter 0 (setTmaSeq c t) = some 2 := by
  unfold setTmaSeq; split <;> rfl

theorem words_hostArea (c : Cfg) (i : LoadImageInfo) (a : AreaImageInfo) : wordsAfter 0 (hostAreaWriteSeq c i a) = some 2 :=
  words_append (words_append (words_append (words_setTma c _) (words_args _ _ _)) (words_sendBuf _ _)) rfl

theorem words_dpy1bpp (c : Cfg) (x y w h mode : Word) (a : Option DWord) (bg fg : Byte) :
    wordsAfter 0 (dpy1bppSeq c x y w h mode a bg fg) = some 2 := by
  unfold dpy1bppSeq
  rw [List.append_assoc]
  exact words_append (words_append (m := 1) rfl (words_display _ _ _ _ _ _ _ 1)) rfl

section
variable (c : Cfg)

theorem part_sendCmd (w : Word) : PartOf c (.sendCmd w) (sendCmdSeq w) 0 := ⟨fun _ _ => rfl, rfl, nofun, rfl⟩
theorem part_sendData (w : Word) : PartOf c (.sendData w) (sendDataSeq w) 0 := ⟨fun _ _ => rfl, rfl, nofun, rfl⟩
theorem part_sendBuf (ws : List Word) : PartOf c (.sendBuf ws) (sendBufSeq ws) 0 :=
  ⟨fun _ _ => rfl, rfl, nofun, words_sendBuf _ _⟩
theorem part_readData : PartOf c .readData readDataSeq 1 := ⟨fun _ _ => rfl, rfl, nofun, rfl⟩
theorem part_readBuf (n : Nat) : PartOf c (.readBuf n) (readBufSeq n) n :=
  ⟨fun _ _ => rfl, rfl, nofun, by simpa using words_readBuf n 0⟩
theorem part_args (code : Word) (ws : List Word) : PartOf c (.sendCmdArgs code ws) (sendCmdArgsSeq code ws) 0 :=
  ⟨fun _ _ => rfl, rfl, nofun, words_args _ _ _⟩
theorem part_readReg (a : Word) : PartOf c (.readReg a) (readRegSeq c a) 1 := ⟨by rintro _ rfl; rfl, rfl, nofun, rfl⟩
theorem part_writeReg (a v : Word) : PartOf c (.writeReg a v) (writeRegSeq c a v) 0 :=
  ⟨by rintro _ rfl; rfl, rfl, nofun, rfl⟩
theorem part_setTma (t : DWord) : PartOf c (.setTma t) (setTmaSeq c t) 2 :=
  ⟨by rintro _ rfl; rfl, rfl, nofun, words_setTma _ _⟩
theorem part_ldArea (i : LoadImageInfo) (a : AreaImageInfo) :
    PartOf c (.ldImgAreaStart i a) (ldImgAreaStartSeq c i a) 0 := ⟨by rintro _ rfl; rfl, rfl, nofun, words_args _ _ _⟩
theorem part_ldEnd : PartOf c .ldImgEnd (ldImgEndSeq c) 0 := ⟨by rintro _ rfl; rfl, rfl, nofun, rfl⟩
theorem part_hostArea (i : LoadImageInfo) (a : AreaImageInfo) (b : Nat) (p : Bool) :
    PartOf c (.hostAreaWrite i a b p) (hostAreaWriteSeq c i a) 2 :=
  ⟨by rintro _ rfl; rfl, rfl, nofun, words_hostArea _ _ _⟩
theorem part_wait : PartOf c .waitDpyReady (waitDpySeq c false) 0 := ⟨by rintro _ rfl; rfl, rfl, nofun, rfl⟩
theorem part_dpyArea (x y w h m : Word) : PartOf c (.dpyArea x y w h m) (displaySeq c x y w h m none) 0 :=
  ⟨by rintro _ rfl; rfl, rfl, nofun, words_display _ _ _ _ _ _ _ _⟩
theorem part_dpyAreaBuf (x y w h m : Word) (t : DWord) :
    PartOf c (.dpyAreaBuf x y w h m t) (displaySeq c x y w h m (some t)) 0 :=
  ⟨by rintro _ rfl; rfl, rfl, nofun, words_display _ _ _ _ _ _ _ _⟩
theorem part_dpy1bpp (x y w h m : Word) (t : Option DWord) (bg fg : Byte) :
    PartOf c (.dpy1bpp x y w h m t bg fg) (dpy1bppSeq c x y w h m t bg fg) 2 :=
  ⟨by rintro _ rfl; rfl, rfl, nofun, words_dpy1bpp _ _ _ _ _ _ _ _ _⟩

end

theorem parts_refresh (s : State) (pixfmt : BitVec 4) (n : Nat) (src : List Word) (x y w h : Word) (t : DWord) (hold : Bool) :
    ∃ ms, PartsOf s.cfg (expansionOf.refreshExpansion s.cfg pixfmt n src x y w h t hold)
      (refreshSeq s.cfg pixfmt src x y w h t hold) ms := by
  unfold expansionOf.refreshExpansion refreshSeq
  rw [List.append_assoc]
  cases hold
  · exact ⟨_, .cons (part_wait _) (.cons (part_hostArea _ _ _ _ _) (.one (part_dpyAreaBuf _ _ _ _ _ _ _)))⟩
  · exact ⟨_, .cons (part_wait _) (.cons (part_hostArea _ _ _ _ _) (.one (part_dpyArea _ _ _ _ _ _)))⟩

/-- `parts` are the parts of `i`: their sequences make up its own, and their results its own. -/
structure Composed (s : State) (i : Instr) (parts : List Instr) (ms : List Nat) : Prop where
  nonempty : parts ≠ []
  sequence : PartsOf s.cfg parts (bodyOf s i) ms
  result : ∀ gs : List (List Word), gs.map List.length = ms →
    resultOf i (List.zipWith (fun p g => (retOf p).value g) parts gs) = (retOf i).value gs.flatten

theorem composed_of {s : State} {i : Instr} {ps : List Instr} {ms : List Nat} {b : List Prim} (h1 : ps ≠ [])
    (h2 : PartsOf s.cfg ps b ms) (h3 : bodyOf s i = b)
    (h4 : ∀ gs : List (List Word), gs.map List.length = ms →
      resultOf i (List.zipWith (fun p g => (retOf p).value g) ps gs) = (retOf i).value gs.flatten) :
    ∃ ms, Composed s i ps ms := ⟨ms, h1, h3 ▸ h2, h4⟩

/-- An operation without result. -/
theorem composed_silent {s : State} {i : Instr} {ps : List Instr} {ms : List Nat} {b : List Prim} (h1 : ps ≠ [])
    (h2 : PartsOf s.cfg ps b ms) (h3 : bodyOf s i = b) (h4 : ∀ vs, resultOf i vs = .nothing)
    (h5 : retOf i = .nothing) : ∃ ms, Composed s i ps ms :=
  ⟨ms, h1, h3 ▸ h2, fun _ _ => by rw [h4, h5]; rfl⟩

theorem lengths_three {gs : List (List Word)} {a b d : Nat} (h : gs.map List.length = [a, b, d]) :
    ∃ x y z, gs = [x, y, z] ∧ x.length = a ∧ y.length = b ∧ z.length = d := by
  match gs, h with
  | [x, y, z], h => exact ⟨x, y, z, rfl, by simpa using h⟩

theorem lengths_two {gs : List (List Word)} {a b : Nat} (h : gs.map List.length = [a, b]) :
    ∃ x y, gs = [x, y] ∧ x.length = a ∧ y.length = b := by
  match gs, h with
  | [x, y], h => exact ⟨x, y, rfl, by simpa using h⟩

/-- The sequence of a composite is those of its parts, one after another, and its result is made of theirs. -/
theorem composite_parts {i : Instr} {parts : List Instr} {s : State} (h : expansionOf s i = some parts) :
    ∃ ms, Composed s i parts ms := by
  cases i <;> simp only [expansionOf, Option.some.injEq, reduceCtorEq, Option.map_eq_some_iff] at h
  case sendCmdArgs code ws =>
    subst h
    exact composed_silent (by simp) (.cons (part_sendCmd _ _) (.one (part_sendBuf _ _))) rfl (fun _ => rfl) rfl
  case readReg a =>
    subst h
    refine composed_of (by simp) (.cons (part_sendCmd _ _) (.cons (part_sendData _ _) (.one (part_readData _)))) rfl
      fun gs hg => ?_
    obtain ⟨x, y, z, rfl, hx, hy, hz⟩ := lengths_three hg
    obtain rfl := List.length_eq_zero_iff.mp hx
    obtain rfl := List.length_eq_zero_iff.mp hy
    obtain ⟨v, rfl⟩ := List.length_eq_one_iff.mp hz
    rfl
  case readVcom =>
    subst h
    refine composed_of (by simp) (.cons (part_sendCmd _ _) (.cons (part_sendData _ _) (.one (part_readData _)))) rfl
      fun gs hg => ?_
    obtain ⟨x, y, z, rfl, hx, hy, hz⟩ := lengths_three hg
    obtain rfl := List.length_eq_zero_iff.mp hx
    obtain rfl := List.length_eq_zero_iff.mp hy
    obtain ⟨v, rfl⟩ := List.length_eq_one_iff.mp hz
    rfl
  case getSysInfo =>
    subst h
    refine composed_of (by simp) (.cons (part_sendCmd _ _) (.one (part_readBuf _ _))) rfl fun gs hg => ?_
    obtain ⟨x, y, rfl, hx, hy⟩ := lengths_two hg
    obtain rfl := List.length_eq_zero_iff.mp hx
    show Value.words y = Value.words ([] ++ (y ++ []))
    simp
  case readReg32 a =>
    subst h
    refine composed_of (by simp) (.cons (part_readReg _ _) (.one (part_readReg _ _))) rfl fun gs hg => ?_
    obtain ⟨x, y, rfl, hx, hy⟩ := lengths_two hg
    obtain ⟨v, rfl⟩ := List.length_eq_one_iff.mp hx
    obtain ⟨w, rfl⟩ := List.length_eq_one_iff.mp hy
    rfl
  case enhanceDrv =>
    subst h
    cases hb : s.cfg.edcReadback with
    | true =>
      refine composed_of (by simp) (.cons (part_readReg _ _) (.cons (part_writeReg _ _ _) (.one (part_readReg _ _))))
        (by simp only [bodyOf, enhanceDrvSeq, hb, if_true, List.append_assoc]; rfl) fun gs hg => ?_
      obtain ⟨x, y, z, rfl, hx, hy, hz⟩ := lengths_three hg
      obtain ⟨v, rfl⟩ := List.length_eq_one_iff.mp hx
      rfl
    | false =>
      refine composed_of (by simp) (.cons (part_readReg _ _) (.one (part_writeReg _ _ _)))
        (by simp only [bodyOf, enhanceDrvSeq, hb]; rfl) fun gs hg => ?_
      obtain ⟨x, y, rfl, hx, hy⟩ := lengths_two hg
      obtain ⟨v, rfl⟩ := List.length_eq_one_iff.mp hx
      rfl
  case writeReg a v =>
    subst h
    exact composed_silent (by simp) (.cons (part_sendCmd _ _) (.cons (part_sendData _ _) (.one (part_sendData _ _)))) rfl
      (fun _ => rfl) rfl
  case writeVcom v =>
    subst h
    exact composed_silent (by simp) (.cons (part_sendCmd _ _) (.cons (part_sendData _ _) (.one (part_sendData _ _)))) rfl
      (fun _ => rfl) rfl
  case writeReg32 a v =>
    subst h
    exact composed_silent (by simp) (.cons (part_writeReg _ _ _) (.one (part_writeReg _ _ _))) rfl (fun _ => rfl) rfl
  case ldImgStart i =>
    subst h
    exact composed_silent (by simp) (.cons (part_sendCmd _ _) (.one (part_sendData _ _))) rfl (fun _ => rfl) rfl
  case ldImgAreaStart i a => subst h; exact composed_silent (by simp) (.one (part_args _ _ _)) rfl (fun _ => rfl) rfl
  case ldImgEnd => subst h; exact composed_silent (by simp) (.one (part_sendCmd _ _)) rfl (fun _ => rfl) rfl
  case hostAreaWrite i a b p =>
    subst h
    exact composed_silent (by simp)
      (.cons (part_setTma _ _) (.cons (part_ldArea _ _ _) (.cons (part_sendBuf _ _) (.one (part_ldEnd _)))))
      (by simp [bodyOf, hostAreaWriteSeq]) (fun _ => rfl) rfl
  case dpyArea x y w h m => subst h; exact composed_silent (by simp) (.one (part_args _ _ _)) rfl (fun _ => rfl) rfl
  case dpyAreaBuf x y w h m t => subst h; exact composed_silent (by simp) (.one (part_args _ _ _)) rfl (fun _ => rfl) rfl
  case refresh1bpp src x y w h m t hold =>
    subst h
    exact composed_silent (by simp) (.cons (part_wait _) (.cons (part_hostArea _ _ _ _ _) (.one (part_dpy1bpp _ _ _ _ _ _ _ _ _))))
      (by simp [bodyOf, refresh1bppSeq]) (fun _ => rfl) rfl
  case refresh2bpp src x y w h t hold =>
    subst h
    obtain ⟨ms, hp⟩ := parts_refresh s s.cfg.pixfmt.bpp2 2 src x y w h t hold
    exact composed_silent (by simp [expansionOf.refreshExpansion]) hp rfl (fun _ => rfl) rfl
  case refresh4bpp src x y w h t hold =>
    subst h
    obtain ⟨ms, hp⟩ := parts_refresh s s.cfg.pixfmt.bpp4 4 src x y w h t hold
    exact composed_silent (by simp [expansionOf.refreshExpansion]) hp rfl (fun _ => rfl) rfl
  case refresh8bpp src x y w h t hold =>
    subst h
    obtain ⟨ms, hp⟩ := parts_refresh s s.cfg.pixfmt.bpp8 8 src x y w h t hold
    exact composed_silent (by simp [expansionOf.refreshExpansion]) hp rfl (fun _ => rfl) rfl
  case multiFrame1bpp x y w h t hold =>
    obtain ⟨m, hm, rfl⟩ := h
    exact composed_silent (by simp) (.cons (part_wait _) (.one (part_dpy1bpp _ _ _ _ _ _ _ _ _)))
      (by simp [bodyOf, hm, multiFrameSeq]) (fun _ => rfl) rfl
  case clearRefresh t =>
    obtain ⟨di, hd, rfl⟩ := h
    exact composed_silent (by simp) (.cons (part_wait _) (.cons (part_hostArea _ _ _ _ _) (.one (part_dpyArea _ _ _ _ _ _))))
      (by simp [bodyOf, hd, clearRefreshSeq]) (fun _ => rfl) rfl
  case sysRun => subst h; exact composed_silent (by simp) (.one (part_sendCmd _ _)) rfl (fun _ => rfl) rfl
  case standby => subst h; exact composed_silent (by simp) (.one (part_sendCmd _ _)) rfl (fun _ => rfl) rfl
  case sleep => subst h; exact composed_silent (by simp) (.one (part_sendCmd _ _)) rfl (fun _ => rfl) rfl

theorem openRequest_runs {s : State} (hs : s.Accepts) {rs : List (Option Refusal)} (hr : firstRefusal rs = none)
    (j : Job) : s.openRequest rs j = .next (runPrims j.todo j { s with resp := none }) := by
  simp [State.openRequest, State.request, State.busyCheck, State.openCheck, hs.idle, hs.session, firstRefusal, hr]

/-- A composite in an open idle session runs its sequence, unless its buffer is empty; then the part that sends the
buffer is refused whenever it is issued. -/
theorem composite_runs {i : Instr} {parts : List Instr} {s : State} (h : expansionOf s i = some parts) (hs : s.Accepts) :
    exec i s = .next (runPrims (bodyOf s i) (jobOf s i) { s with resp := none }) ∨
    ∃ p ∈ parts, ∀ u, ∃ r, exec p u = .next (u.refuse r) := by
  have empty : ∀ (p : Instr), (∀ u : State, ∃ j, exec p u = u.openRequest [emptyCheck 0] j) →
      ∀ u, ∃ r', exec p u = .next (u.refuse r') := by
    intro p hp u
    obtain ⟨j, hj⟩ := hp u
    rcases openRequest_cases u [emptyCheck 0] j with ⟨why, e⟩ | ⟨-, -, e, -⟩
    · exact ⟨why, hj.trans e⟩
    · cases e
  have full : ∀ (ws : List Word), ws ≠ [] → firstRefusal [emptyCheck ws.length] = none := by
    intro ws h
    simp [firstRefusal, emptyCheck, h]
  have buffer : ∀ (ws : List Word) (j : Job) (p : Instr), p ∈ parts → exec i s = s.openRequest [emptyCheck ws.length] j →
      (∀ u : State, ∃ j, exec p u = u.openRequest [emptyCheck ws.length] j) →
      exec i s = .next (runPrims j.todo j { s with resp := none }) ∨
      ∃ p ∈ parts, ∀ u, ∃ r, exec p u = .next (u.refuse r) := by
    intro ws j p hp he hu
    rcases eq_or_ne ws [] with rfl | hw
    · exact .inr ⟨p, hp, empty p hu⟩
    · exact .inl (he.trans (openRequest_runs hs (full ws hw) j))
  have silent : ∀ (j : Job), exec i s = s.openRequest [] j →
      exec i s = .next (runPrims j.todo j { s with resp := none }) ∨
      ∃ p ∈ parts, ∀ u, ∃ r, exec p u = .next (u.refuse r) :=
    fun j he => .inl (he.trans (openRequest_runs hs rfl j))
  cases i <;> simp only [expansionOf, Option.some.injEq, reduceCtorEq, Option.map_eq_some_iff] at h
  case sendCmdArgs code ws =>
    exact buffer ws (jobOf s (.sendCmdArgs code ws)) (.sendBuf ws) (by simp [← h]) rfl (fun u => ⟨_, rfl⟩)
  case hostAreaWrite i a b p =>
    exact buffer i.src (jobOf s (.hostAreaWrite i a b p)) (.sendBuf i.src) (by simp [← h]) rfl (fun u => ⟨_, rfl⟩)
  case refresh1bpp src x y w h' m t hold =>
    exact buffer src (jobOf s (.refresh1bpp src x y w h' m t hold)) _ (by rw [← h]; exact .tail _ (.head _)) rfl
      (fun u => ⟨_, rfl⟩)
  case refresh2bpp src x y w h' t hold =>
    exact buffer src (jobOf s (.refresh2bpp src x y w h' t hold)) _ (by rw [← h]; exact .tail _ (.head _)) rfl
      (fun u => ⟨_, rfl⟩)
  case refresh4bpp src x y w h' t hold =>
    exact buffer src (jobOf s (.refresh4bpp src x y w h' t hold)) _ (by rw [← h]; exact .tail _ (.head _)) rfl
      (fun u => ⟨_, rfl⟩)
  case refresh8bpp src x y w h' t hold =>
    exact buffer src (jobOf s (.refresh8bpp src x y w h' t hold)) _ (by rw [← h]; exact .tail _ (.head _)) rfl
      (fun u => ⟨_, rfl⟩)
  case multiFrame1bpp x y w h' t hold =>
    obtain ⟨a2, ha, -⟩ := h
    exact silent (jobOf s (.multiFrame1bpp x y w h' t hold))
      (by simp only [exec, execMultiFrame1bpp, ha, jobOf, bodyOf]; rfl)
  case clearRefresh t =>
    obtain ⟨di, hd, h⟩ := h
    exact buffer (clearBuf di[0] di[1]) (jobOf s (.clearRefresh t)) _ (by rw [← h]; exact .tail _ (.head _))
      (by simp only [exec, execClearRefresh, hd, jobOf, bodyOf]; rfl) (fun u => ⟨_, rfl⟩)
  all_goals exact silent (jobOf s _) rfl

end Sys2Proof.Machine
end

