-- ==== Sys2Proof/Laws/PerInstr.lean ====
section
/-!
SUPPORT. The per-instruction family `OperandTypes`: the operand record an instruction encodes to has the types of
30_encoding R99, and a wire row encodes to no request.
-/

namespace Sys2Proof.Laws.OperandTypes

open Sys2Proof

/-- The record of a request has the operand types of its op number; the wire rows are no requests. -/
def Statement (i : Instr) : Prop :=
  match encode i with
  | .request op args => signature op.toNat = some (args.map Operand.kind)
  | .wire bytes => 2 ≤ bytes.length

theorem gate : Statement .gate := rfl

theorem sendCmd (code : Word) : Statement (.sendCmd code) := rfl

theorem sendData (value : Word) : Statement (.sendData value) := rfl

theorem sendBuf (words : List Word) : Statement (.sendBuf words) := rfl

theorem readData : Statement .readData := rfl

theorem readBuf (n : Nat) : Statement (.readBuf n) := rfl

theorem sendCmdArgs (code : Word) (words : List Word) : Statement (.sendCmdArgs code words) := rfl

theorem readReg (addr : Word) : Statement (.readReg addr) := rfl

theorem writeReg (addr value : Word) : Statement (.writeReg addr value) := rfl

theorem readReg32 (addr : Word) : Statement (.readReg32 addr) := rfl

theorem writeReg32 (addr : Word) (value : DWord) : Statement (.writeReg32 addr value) := rfl

theorem widthWords (width : Word) (bpp : Nat) : Statement (.widthWords width bpp) := rfl

theorem setTma (target : DWord) : Statement (.setTma target) := rfl

theorem ldImgStart (info : LoadImageInfo) : Statement (.ldImgStart info) := rfl

theorem ldImgAreaStart (info : LoadImageInfo) (area : AreaImageInfo) : Statement (.ldImgAreaStart info area) := rfl

theorem ldImgEnd : Statement .ldImgEnd := rfl

theorem hostAreaWrite (info : LoadImageInfo) (area : AreaImageInfo) (bpp : Nat) (packed : Bool) :
    Statement (.hostAreaWrite info area bpp packed) := rfl

theorem waitDpyReady : Statement .waitDpyReady := rfl

theorem dpyArea (x y w h mode : Word) : Statement (.dpyArea x y w h mode) := rfl

theorem dpyAreaBuf (x y w h mode : Word) (addr : DWord) : Statement (.dpyAreaBuf x y w h mode addr) := rfl

theorem dpy1bpp (x y w h mode : Word) (addr : Option DWord) (bg fg : Byte) :
    Statement (.dpy1bpp x y w h mode addr bg fg) := rfl

theorem enhanceDrv : Statement .enhanceDrv := rfl

theorem refresh1bpp (src : List Word) (x y w h mode : Word) (target : DWord) (hold : Bool) :
    Statement (.refresh1bpp src x y w h mode target hold) := rfl

theorem refresh2bpp (src : List Word) (x y w h : Word) (target : DWord) (hold : Bool) :
    Statement (.refresh2bpp src x y w h target hold) := rfl

theorem refresh4bpp (src : List Word) (x y w h : Word) (target : DWord) (hold : Bool) :
    Statement (.refresh4bpp src x y w h target hold) := rfl

theorem refresh8bpp (src : List Word) (x y w h : Word) (target : DWord) (hold : Bool) :
    Statement (.refresh8bpp src x y w h target hold) := rfl

theorem multiFrame1bpp (x y w h : Word) (target : DWord) (hold : Bool) :
    Statement (.multiFrame1bpp x y w h target hold) := rfl

theorem clearRefresh (target : DWord) : Statement (.clearRefresh target) := rfl

theorem reset : Statement .reset := rfl

theorem sysRun : Statement .sysRun := rfl

theorem standby : Statement .standby := rfl

theorem sleep : Statement .sleep := rfl

theorem getSysInfo : Statement .getSysInfo := rfl

theorem readVcom : Statement .readVcom := rfl

theorem writeVcom (value : Word) : Statement (.writeVcom value) := rfl

theorem initializeDevice (vcomTarget : Word) : Statement (.initializeDevice vcomTarget) := rfl

theorem shutdown : Statement .shutdown := rfl

theorem frameFc (code : Word) : Statement (.frameFc code) := Nat.le_add_left 2 2

theorem frameFw1 (data : Word) : Statement (.frameFw1 data) := Nat.le_add_left 2 2

theorem frameFwn (datas : List Word) : Statement (.frameFwn datas) := Nat.le_add_left 2 _

theorem frameFr1 : Statement .frameFr1 := Nat.le_add_left 2 4

theorem frameFrn (n : Nat) : Statement (.frameFrn n) := Nat.le_add_left 2 _

theorem wordLdHeader (endian : BitVec 1) (pixfmt rot : BitVec 4) :
    Statement (.wordLdHeader endian pixfmt rot) := Nat.le_refl 2

end Sys2Proof.Laws.OperandTypes
end

