-- ==== Sys2Proof/Tests/Slice0.lean ====
section
/-!
SUPPORT. The model's own tests. Expected values are the spec's: the vectors V1 to V20 and programs P2, P3 of
95_test_vectors (named in each test), run as that file says with its general-knowledge `Cfg` values.
-/

namespace Sys2Proof.Tests

open Sys2Proof Sys2Proof.Machine

/-! ### The setting of 95_test_vectors -/

/-- The GK column of 00_scope R9 and the defaults of the behavioural parameters. -/
def gk : Cfg where
  cmdSysRun := 0x0001
  cmdStandby := 0x0002
  cmdSleep := 0x0003
  cmdRegRd := 0x0010
  cmdRegWr := 0x0011
  cmdLdImg := 0x0020
  cmdLdImgArea := 0x0021
  cmdLdImgEnd := 0x0022
  cmdDpyArea := 0x0034
  cmdDpyBufArea := 0x0037
  cmdVcom := 0x0039
  cmdGetDevInfo := 0x0302
  regLisar := 0x0208
  regDpyStatus := 0x1224
  reg1bppCtrl := 0x113A
  bit1bpp := 2
  regBgvr := 0x1250
  regPackedCtrl := 0x0004
  valPackedEnable := 0x0001
  regEdc := 0x0038
  endianLittle := 0
  endianBig := 1
  pixfmt := { bpp2 := 0, bpp3 := 1, bpp4 := 2, bpp8 := 3 }
  rot := { deg0 := 0, deg90 := 1, deg180 := 2, deg270 := 3 }
  modeInit := 0
  modeGc16 := 2
  readyLevel := .high
  bgvrFgHigh := true
  refreshEndian := 0
  refreshRot := 0
  pixfmt1bppCarrier := 3
  xdiv1bpp := 8
  bg1bpp := 0xF0
  fg1bpp := 0x00
  tmaOrder := .lowFirst
  edcReadback := false
  initWaitKind := .gate
  pollSleep := none
  pollBound := none
  versionCharOrder := .highFirst
  tmaMismatchFault := false

/-- The device-info block of V10 and P3, with the panel 8 by 2 of P3. -/
def info82 : Vector Word 20 :=
  ⟨#[8, 2, 0x36E0, 0x0012, 0x5357, 0x765F, 0x302E, 0x3100, 0, 0, 0, 0, 0x4D36, 0x3431, 0, 0, 0, 0, 0, 0], rfl⟩

/-- The fake backend of 92 D29 at its start. -/
def backend (regs : List (Nat × Word)) (busyLeft busyN : Nat) : Backend :=
  { regs := regs, vcom := 2000, devinfo := info82, busyLeft := busyLeft, busyN := busyN, cmd := none, args := [],
    scope := none, refusedFrame := false }

/-- An open session with configuration `c` and environment `e`. -/
def session (c : Cfg) (e : Env) : State :=
  { cfg := c, isOpen := true, di := none, a2 := none, cs := .deasserted, rst := .driven .high, tmaMismatch := false,
    seq := .idle, trace := [], port := [], resp := none, env := e }

/-- An open session facing the fake backend. -/
def faked (regs : List (Nat × Word)) (busyLeft busyN : Nat) : State :=
  session gk (.fake (backend regs busyLeft busyN))

/-- An open session whose ready line answers `rdy` and whose receiver answers `rx`. -/
def scripted (c : Cfg) (rdy : List Level) (rx : List Byte) : State :=
  session c (.tape { rdy := rdy, rx := rx, opens := [] })

/-- A property of the next state. -/
def nextHas (o : Host.Outcome State Fault Refusal) (p : State → Bool) : Bool :=
  match o with
  | .next t => p t
  | .fault _ => false
  | .refused _ => false

/-- The frames of the events an outcome's state holds. -/
def sent (o : Host.Outcome State Fault Refusal) : Option (List WireFrame) :=
  match o with
  | .next t => frames t.trace
  | .fault _ => none
  | .refused _ => none

/-- The number of gates run: with an always-ready line, the `RDY` events. -/
def gates (t : State) : Nat := t.trace.countP (fun e => e == .rdy .high)

/-- The frames of `WRITE_REG a, v` with the GK codes. -/
def wr (a v : Word) : List WireFrame := [.command 0x11, .write [a], .write [v]]

/-- The frames of `READ_REG a` answered `v`. -/
def rd (a v : Word) : List WireFrame := [.command 0x10, .write [a], .read 0 [v]]

/-! ### Framing (V1 to V3) -/

theorem test_gate_waits :  -- V1, first poll of L, L, H
    nextHas (exec .gate (scripted gk [.low, .low, .high] [])) (fun t =>
      t.trace == [.rdy .low] && t.resp == none && t.seq != .idle) = true := by decide +kernel

theorem test_gate_ready :  -- V1a
    nextHas (exec .gate (scripted gk [.high] [])) (fun t =>
      t.trace == [.rdy .high] && t.resp == some (.ok .nothing) && t.seq == .idle) = true := by decide +kernel

theorem test_sendCmd :  -- V2
    nextHas (exec (.sendCmd 0x0001) (scripted gk [.high, .high] [])) (fun t =>
      t.trace == [.rdy .high, .cs true, .tx 0x60, .tx 0x00, .rdy .high, .tx 0x00, .tx 0x01, .cs false]) = true := by
  decide +kernel

theorem test_sendCmd_timeout :  -- V2b
    nextHas (step { scripted { gk with pollBound := some 1 } [.high, .low] [] with
        port := [.request 0x02 [.u16 0x0001]] }) (fun t =>
      t.trace == [.rdy .high, .cs true, .tx 0x60, .tx 0x00, .rdy .low, .cs false] && t.cs == .deasserted
        && t.resp == some (.fault (.waitTimeout .gate))) = true := by decide +kernel

theorem test_sendData :  -- V2c, V3d
    sent (exec (.sendData 0x1224) (faked [] 0 0)) = some [.write [0x1224]] := by decide +kernel

theorem test_sendBuf :  -- V2d
    nextHas (exec (.sendBuf [0x0000, 0x0000, 0x0750, 0x057C, 0x0002]) (faked [] 0 0)) (fun t =>
      frames t.trace == some [.write [0x0000, 0x0000, 0x0750, 0x057C, 0x0002]] && gates t == 6) = true := by
  decide +kernel

theorem test_sendBuf_empty :  -- V2e
    nextHas (exec (.sendBuf []) (faked [] 0 0)) (fun t =>
      t.trace == [] && t.resp == some (.refused .emptyBuffer)) = true := by decide +kernel

theorem test_readData :  -- V3
    nextHas (exec .readData (scripted gk [.high, .high, .high] [0xAB, 0xCD, 0x12, 0x34])) (fun t =>
      t.trace == [.rdy .high, .cs true, .tx 0x10, .tx 0x00, .rdy .high, .rx 0xAB, .rx 0xCD, .rdy .high, .rx 0x12,
        .rx 0x34, .cs false] && t.resp == some (.ok (.word 0x1234))) = true := by decide +kernel

theorem test_readBuf :  -- V3a
    nextHas (exec (.readBuf 2) (scripted gk (List.replicate 4 .high) [0, 0, 0x07, 0x50, 0x05, 0x7C])) (fun t =>
      t.resp == some (.ok (.words [0x0750, 0x057C])) && gates t == 4) = true := by decide +kernel

theorem test_sendCmdArgs :  -- V3c
    nextHas (exec (.sendCmdArgs 0x0034 [0, 0, 8, 2, 2]) (faked [] 0 0)) (fun t =>
      frames t.trace == some [.command 0x0034, .write [0, 0, 8, 2, 2]] && gates t == 8) = true := by decide +kernel

theorem test_sendCmdArgs_empty :  -- V3c
    nextHas (exec (.sendCmdArgs 0x0034 []) (faked [] 0 0)) (fun t =>
      t.trace == [] && t.resp == some (.refused .emptyBuffer)) = true := by decide +kernel

/-! ### Registers (V4, V5) -/

theorem test_readReg :  -- V4
    nextHas (exec (.readReg 0x1224) (faked [] 0 0)) (fun t =>
      frames t.trace == some (rd 0x1224 0) && t.resp == some (.ok (.word 0)) && gates t == 7) = true := by
  decide +kernel

theorem test_writeReg :  -- V4a
    nextHas (exec (.writeReg 0x0004 0x0001) (faked [] 0 0)) (fun t =>
      frames t.trace == some (wr 0x0004 0x0001) && gates t == 6 &&
        t.env == .fake { backend [(4, 1)] 0 0 with cmd := some 0x11, args := [4, 1] }) = true := by decide +kernel

theorem test_readReg32 :  -- V5
    nextHas (exec (.readReg32 0x0208) (faked [(0x0208, 0x36E0), (0x020A, 0x0012)] 0 0)) (fun t =>
      frames t.trace == some (rd 0x0208 0x36E0 ++ rd 0x020A 0x0012) &&
        t.resp == some (.ok (.dword 0x001236E0))) = true := by decide +kernel

theorem test_writeReg32 :  -- V5b, the wrap
    sent (exec (.writeReg32 0xFFFE 0xAABBCCDD) (faked [] 0 0)) = some (wr 0xFFFE 0xCCDD ++ wr 0x0000 0xAABB) := by
  decide +kernel

/-! ### Image transfer (V7, V13) -/

theorem test_widthWords :  -- V7a
    [wordsPerRow 200 4, wordsPerRow 201 4, wordsPerRow 1872 4, wordsPerRow 0 4, wordsPerRow 17 1, wordsPerRow 5 3,
      wordsPerRow 65535 8] = [50, 51, 468, 0, 2, 1, 32768] := by decide +kernel

theorem test_widthWords_closed :  -- V20
    nextHas (exec (.widthWords 200 4) State.reset) (fun t => t.resp == some (.ok (.nat 50)) && !t.isOpen) = true := by
  decide +kernel

theorem test_setTma :  -- V7
    nextHas (exec (.setTma 0x001236E0) (faked [] 0 0)) (fun t =>
      frames t.trace == some (wr 0x0208 0x36E0 ++ wr 0x020A 0x0012 ++ rd 0x0208 0x36E0 ++ rd 0x020A 0x0012) &&
        gates t == 26 && !t.tmaMismatch && t.resp == some (.ok .nothing)) = true := by decide +kernel

theorem test_setTma_mismatch :  -- V7d, with the fault: the last read answers 0x0013
    nextHas (exec (.setTma 0x001236E0) (scripted { gk with tmaMismatchFault := true } (List.replicate 26 .high)
        [0, 0, 0x36, 0xE0, 0, 0, 0x00, 0x13])) (fun t =>
      t.tmaMismatch && t.resp == some (.fault (.tmaMismatch 0x001236E0 0x001336E0))) = true := by decide +kernel

theorem test_headerWords :  -- V7b
    [headerWord 0 2 0, headerWord 1 3 1, headerWord 0 0 0, headerWord 0 3 0, headerWord 1 1 3]
      = [0x0020, 0x0131, 0x0000, 0x0030, 0x0113] := by decide +kernel

/-- The `LoadImageInfo` of V13 and V13a. -/
def info4 : LoadImageInfo :=
  { endian := 0, pixfmt := 2, rot := 0, src := [0xFFFF, 0xF00F, 0x0FF0, 0x0000], target := 0x001236E0 }

/-- The frames of `SET_TMA 0x001236E0` (V7). -/
def tma7 : List WireFrame := wr 0x0208 0x36E0 ++ wr 0x020A 0x0012 ++ rd 0x0208 0x36E0 ++ rd 0x020A 0x0012

theorem test_ldImgStart :  -- V13
    sent (exec (.ldImgStart info4) (faked [] 0 0)) = some [.command 0x20, .write [0x0020]] := by decide +kernel

theorem test_ldImgAreaStart :  -- V13
    sent (exec (.ldImgAreaStart info4 ⟨0, 0, 8, 2⟩) (faked [] 0 0))
      = some [.command 0x21, .write [0x0020, 0, 0, 8, 2]] := by decide +kernel

theorem test_ldImgEnd :  -- V13
    sent (exec .ldImgEnd (faked [] 0 0)) = some [.command 0x22] := by decide +kernel

theorem test_hostAreaWrite :  -- V13a
    nextHas (exec (.hostAreaWrite info4 ⟨0, 0, 8, 2⟩ 8 false) (faked [] 0 0)) (fun t =>
      frames t.trace == some (tma7 ++ [.command 0x21, .write [0x0020, 0, 0, 8, 2],
        .write [0xFFFF, 0xF00F, 0x0FF0, 0x0000], .command 0x22]) && gates t == 41) = true := by decide +kernel

theorem test_loadsBracketed :  -- V13, V13a: exactly one end for each start, and none without (42 R156, 93 U15)
    loadsBracketed gk false [.command 0x21, .write [0x0020, 0, 0, 8, 2], .write [0xFFFF], .command 0x22] = true ∧
    loadsBracketed gk false [.command 0x20, .write [0x0020], .command 0x34] = false ∧
    loadsBracketed gk false [.command 0x20, .write [0x0020]] = false ∧
    loadsBracketed gk false [.command 0x20, .write [0x0020], .command 0x22, .command 0x22] = false ∧
    loadsBracketed gk false [.command 0x22] = false := by decide +kernel

/-! ### Display (V6, V14, V15) -/

theorem test_waitDpyReady_busy :  -- V14, the first poll
    nextHas (exec .waitDpyReady (faked [] 2 0)) (fun t =>
      frames t.trace == some (rd 0x1224 1) && t.resp == none && t.seq != .idle) = true := by decide +kernel

theorem test_waitDpyReady_timeout :  -- V14 with a bound of one poll; 0x8000 is busy
    nextHas (exec .waitDpyReady (scripted { gk with pollBound := some 1 } (List.replicate 7 .high)
        [0, 0, 0x80, 0x00])) (fun t => t.resp == some (.fault (.waitTimeout .display))) = true := by decide +kernel

theorem test_dpyArea :  -- V14a
    sent (exec (.dpyArea 0 0 1872 1404 2) (faked [] 0 0))
      = some [.command 0x34, .write [0, 0, 0x0750, 0x057C, 2]] := by decide +kernel

theorem test_dpyAreaBuf :  -- V14b
    sent (exec (.dpyAreaBuf 0 0 8 2 2 0x001236E0) (faked [] 0 0))
      = some [.command 0x37, .write [0, 0, 8, 2, 2, 0x36E0, 0x0012]] := by decide +kernel

theorem test_dpy1bpp :  -- V6 with `BUSY_N` 0: one status poll instead of three
    nextHas (exec (.dpy1bpp 16 0 32 8 6 none 0xF0 0x00) (faked [(0x113A, 0x0100)] 0 0)) (fun t =>
      frames t.trace == some (rd 0x113A 0x0100 ++ wr 0x113A 0x0104 ++ wr 0x1250 0x00F0 ++
        [.command 0x34, .write [0x10, 0, 0x20, 8, 6]] ++ rd 0x1224 0 ++ rd 0x113A 0x0104 ++ wr 0x113A 0x0100) &&
        gates t == 47) = true := by decide +kernel

theorem test_dpy1bpp_late_timeout :  -- V6a with a bound of one poll: the bit is cleared, then the fault
    nextHas (exec (.dpy1bpp 16 0 32 8 6 none 0xF0 0x00)
        (session { gk with pollBound := some 1 } (.fake (backend [(0x113A, 0x0100)] 0 9)))) (fun t =>
      frames t.trace == some (rd 0x113A 0x0100 ++ wr 0x113A 0x0104 ++ wr 0x1250 0x00F0 ++
        [.command 0x34, .write [0x10, 0, 0x20, 8, 6]] ++ rd 0x1224 1 ++ rd 0x113A 0x0104 ++ wr 0x113A 0x0100) &&
        t.resp == some (.fault (.waitTimeout .display))) = true := by decide +kernel

theorem test_enhanceDrv :  -- V15 with `EDC_READBACK`
    nextHas (exec .enhanceDrv (session { gk with edcReadback := true } (.fake (backend [(0x38, 0x0600)] 0 0)))) (fun t =>
      frames t.trace == some (rd 0x38 0x0600 ++ wr 0x38 0x0602 ++ rd 0x38 0x0602) &&
        t.resp == some (.ok (.word 0x0600))) = true := by decide +kernel

/-! ### Refresh (V8, V9, V16, V17, P2) -/

theorem test_refresh1bpp :  -- V9 with `BUSY_N` 0, hold false (V9a)
    sent (exec (.refresh1bpp [0xA5A5, 0x5A5A] 16 0 16 2 6 0x001236E0 false) (faked [(0x113A, 0x0100)] 0 0))
      = some (rd 0x1224 0 ++ tma7 ++ [.command 0x21, .write [0x0030, 2, 0, 2, 2], .write [0xA5A5, 0x5A5A],
          .command 0x22] ++ rd 0x113A 0x0100 ++ wr 0x113A 0x0104 ++ wr 0x1250 0x00F0 ++
          [.command 0x37, .write [0x10, 0, 0x10, 2, 6, 0x36E0, 0x0012]] ++ rd 0x1224 0 ++ rd 0x113A 0x0104 ++
          wr 0x113A 0x0100) := by decide +kernel

theorem test_refresh2bpp :  -- V9b
    sent (exec (.refresh2bpp [1, 2] 0 0 8 2 0x001236E0 true) (faked [] 0 0))
      = some (rd 0x1224 0 ++ tma7 ++ [.command 0x21, .write [0x0000, 0, 0, 8, 2], .write [1, 2], .command 0x22,
          .command 0x34, .write [0, 0, 8, 2, 2]]) := by decide +kernel

theorem test_refresh4bpp :  -- P2
    nextHas (exec (.refresh4bpp [0xFFFF, 0xF00F, 0x0FF0, 0x0000] 0 0 8 2 0x001236E0 true) (faked [] 0 0)) (fun t =>
      frames t.trace == some (rd 0x1224 0 ++ tma7 ++ [.command 0x21, .write [0x0020, 0, 0, 8, 2],
        .write [0xFFFF, 0xF00F, 0x0FF0, 0x0000], .command 0x22, .command 0x34, .write [0, 0, 8, 2, 2]]) &&
        gates t == 56) = true := by decide +kernel

theorem test_refresh8bpp :  -- V9b, P2a
    sent (exec (.refresh8bpp [7] 0 0 8 2 0x001236E0 false) (faked [] 0 0))
      = some (rd 0x1224 0 ++ tma7 ++ [.command 0x21, .write [0x0030, 0, 0, 8, 2], .write [7], .command 0x22,
          .command 0x37, .write [0, 0, 8, 2, 2, 0x36E0, 0x0012]]) := by decide +kernel

theorem test_multiFrame1bpp :  -- V16
    nextHas (exec (.multiFrame1bpp 0 0 8 2 0x001236E0 true) { faked [] 0 0 with a2 := some 4 }) (fun t =>
      frames t.trace == some (rd 0x1224 0 ++ rd 0x113A 0 ++ wr 0x113A 4 ++ wr 0x1250 0x00F0 ++
        [.command 0x34, .write [0, 0, 8, 2, 4]] ++ rd 0x1224 0 ++ rd 0x113A 4 ++ wr 0x113A 0) && gates t == 54) = true := by
  decide +kernel

theorem test_multiFrame1bpp_unwritten :  -- V16
    nextHas (exec (.multiFrame1bpp 0 0 8 2 0x001236E0 true) (faked [] 0 0)) (fun t =>
      t.trace == [] && t.resp == some (.refused .unwrittenRegister)) = true := by decide +kernel

theorem test_clearRefresh :  -- V17
    nextHas (exec (.clearRefresh 0x001236E0) { faked [] 0 0 with di := some info82 }) (fun t =>
      frames t.trace == some (rd 0x1224 0 ++ tma7 ++ [.command 0x21, .write [0x0020, 0, 0, 8, 2],
        .write [0xFFFF, 0xFFFF, 0xFFFF, 0xFFFF], .command 0x22, .command 0x34, .write [0, 0, 8, 2, 2]]) &&
        gates t == 56) = true := by decide +kernel

theorem test_clearBuf_fills_panel (w h : Word) : fillsArea (clearBuf w h) ⟨0, 0, w, h⟩ 4 := by  -- V8
  simp [fillsArea, clearBuf, Config.clearBpp]

theorem test_clearRefresh_unwritten :  -- V17a
    nextHas (exec (.clearRefresh 0x001236E0) (faked [] 0 0)) (fun t =>
      t.trace == [] && t.resp == some (.refused .unwrittenRegister)) = true := by decide +kernel

/-! ### Lifecycle (V10 to V12, V18, V19, P3) -/

theorem test_reset :  -- V18
    nextHas (exec .reset (faked [] 0 0)) (fun t =>
      t.trace == [.rst .high, .sleep 200000, .rst .low, .sleep 10000, .rst .high, .sleep 200000] &&
        t.rst == .driven .high) = true := by decide +kernel

theorem test_modes :  -- V18a
    (sent (exec .sysRun (faked [] 0 0)), sent (exec .standby (faked [] 0 0)), sent (exec .sleep (faked [] 0 0)))
      = (some [.command 1], some [.command 2], some [.command 3]) := by decide +kernel

theorem test_getSysInfo :  -- V10, `S.DI` unchanged
    nextHas (exec .getSysInfo (faked [] 0 0)) (fun t =>
      frames t.trace == some [.command 0x0302, .read 0 info82.toList] && gates t == 24 &&
        t.resp == some (.ok (.words info82.toList)) && t.di.isNone) = true := by decide +kernel

theorem test_readVcom :  -- V11
    nextHas (exec .readVcom (faked [] 0 0)) (fun t =>
      frames t.trace == some [.command 0x39, .write [0], .read 0 [2000]] && t.resp == some (.ok (.word 2000))) = true := by
  decide +kernel

theorem test_writeVcom :  -- V11
    sent (exec (.writeVcom 1500) (faked [] 0 0)) = some [.command 0x39, .write [1], .write [0x05DC]] := by
  decide +kernel

/-- A closed block facing the fake backend. -/
def closedBlock : State := { State.reset with cfg := gk, env := .fake (backend [] 0 0) }

/-- The frames of P3 up to the VCOM read. -/
def p3 : List WireFrame :=
  [.command 1, .command 0x0302, .read 0 info82.toList] ++ wr 0x0004 0x0001 ++
    [.command 0x39, .write [0], .read 0 [2000]]

theorem test_initialize :  -- P3
    nextHas (exec (.initializeDevice 1500) closedBlock) (fun t =>
      t.trace.take 7 == [.opened true, .rst .high, .sleep 200000, .rst .low, .sleep 10000, .rst .high, .sleep 200000]
        && frames t.trace == some (p3 ++ [.command 0x39, .write [1], .write [0x05DC]]) && t.trace.length == 167 &&
        gates t == 46 && t.isOpen && t.cs == .deasserted && t.rst == .driven .high && t.di == some info82 &&
        t.a2 == some 4 && t.resp == some (.ok (.words info82.toList))) = true := by decide +kernel

theorem test_initialize_same_vcom :  -- P3b
    nextHas (exec (.initializeDevice 2000) closedBlock) (fun t =>
      frames t.trace == some p3 && gates t == 40 && t.resp == some (.ok (.words info82.toList))) = true := by
  decide +kernel

theorem test_initialize_open_fails :  -- V20a
    nextHas (exec (.initializeDevice 1500) { closedBlock with env := .tape ⟨[], [], [false]⟩ }) (fun t =>
      t.trace == [.opened false] && t.resp == some (.fault .transportOpenFailed) && !t.isOpen && t.di.isNone) = true := by
  decide +kernel

theorem test_initialize_timeout :  -- V20d
    nextHas (exec (.initializeDevice 1500)
        { closedBlock with cfg := { gk with pollBound := some 1 }, env := .tape ⟨[.low], [], [true]⟩ }) (fun t =>
      t.trace == [.opened true, .rst .high, .sleep 200000, .rst .low, .sleep 10000, .rst .high, .sleep 200000,
        .rdy .low, .closed] && t.resp == some (.fault (.waitTimeout .gate)) && !t.isOpen) = true := by decide +kernel

theorem test_fastMode :  -- V12
    let lut (c : Cfg) (a b d : Word) : Word :=
      fastMode c ⟨#[0, 0, 0, 0, 0, 0, 0, 0, 0, 0, 0, 0, a, b, d, 0, 0, 0, 0, 0], rfl⟩
    [lut gk 0x4D36 0x3431 0, lut gk 0x4D38 0x3431 0, lut gk 0x4D36 0x3431 0x5800, lut gk 0 0 0,
      lut gk 0x364D 0x3134 0, lut { gk with versionCharOrder := .lowFirst } 0x364D 0x3134 0,
      lut gk 0x4D36 0x3431 0x0058] = [4, 6, 6, 6, 6, 4, 4] := by decide +kernel

theorem test_firmware :  -- V10: "SWv_0.1"
    versionString .highFirst (fwWords info82) = [0x53, 0x57, 0x76, 0x5F, 0x30, 0x2E, 0x31] := by decide +kernel

theorem test_targetAddress :  -- V10
    ({ faked [] 0 0 with di := some info82 } : State).targetAddress = .ok (.dword 0x001236E0) := by decide +kernel

theorem test_shutdown :  -- V19
    nextHas (exec .shutdown { faked [] 0 0 with di := some info82, a2 := some 4 }) (fun t =>
      t.trace == [.closed] && !t.isOpen && t.cs == .undriven && t.rst == .undriven && t.di == some info82 &&
        t.a2 == some 4) = true := by decide +kernel

/-! ### The request port (V20) -/

theorem test_notOpen :  -- V20
    nextHas (exec (.readReg 0x1224) State.reset) (fun t =>
      t.resp == some (.refused .notOpen) && t.trace == []) = true := by decide +kernel

theorem test_alreadyOpen :  -- V20b
    nextHas (exec (.initializeDevice 1500) (faked [] 0 0)) (fun t =>
      t.resp == some (.refused .alreadyOpen) && t.trace == []) = true := by decide +kernel

theorem test_unknownOp :  -- V20c
    nextHas (step { faked [] 0 0 with port := [.request 0x08 []] }) (fun t =>
      t.resp == some (.refused .unknownOp) && t.trace == [] && t.port == []) = true := by decide +kernel

/-! ### Decoding: each word written out from 30_encoding R83, R86, R99 -/

/-- The record of V13 as an operand. -/
def src4 : List Word := [0xFFFF, 0x0000]

theorem test_decode_framing :
    decode (.request 0x01 []) = .ok .gate ∧
    decode (.request 0x02 [.u16 0x0034]) = .ok (.sendCmd 0x0034) ∧
    decode (.request 0x03 [.u16 0x1224]) = .ok (.sendData 0x1224) ∧
    decode (.request 0x04 [.words src4]) = .ok (.sendBuf src4) ∧
    decode (.request 0x05 []) = .ok .readData ∧
    decode (.request 0x06 [.nat 20]) = .ok (.readBuf 20) ∧
    decode (.request 0x07 [.u16 0x0034, .words src4]) = .ok (.sendCmdArgs 0x0034 src4) := by decide

theorem test_decode_registers :
    decode (.request 0x10 [.u16 0x1224]) = .ok (.readReg 0x1224) ∧
    decode (.request 0x11 [.u16 0x0004, .u16 0x0001]) = .ok (.writeReg 0x0004 0x0001) ∧
    decode (.request 0x12 [.u16 0x0208]) = .ok (.readReg32 0x0208) ∧
    decode (.request 0x13 [.u16 0xFFFE, .u32 0xAABBCCDD]) = .ok (.writeReg32 0xFFFE 0xAABBCCDD) := by decide

theorem test_decode_image :
    decode (.request 0x20 [.u16 200, .nat 4]) = .ok (.widthWords 200 4) ∧
    decode (.request 0x21 [.u32 0x001236E0]) = .ok (.setTma 0x001236E0) ∧
    decode (.request 0x22 [.info info4]) = .ok (.ldImgStart info4) ∧
    decode (.request 0x23 [.info info4, .area ⟨0, 1, 8, 2⟩]) = .ok (.ldImgAreaStart info4 ⟨0, 1, 8, 2⟩) ∧
    decode (.request 0x24 []) = .ok .ldImgEnd ∧
    decode (.request 0x25 [.info info4, .area ⟨0, 1, 8, 2⟩, .nat 4, .flag true])
      = .ok (.hostAreaWrite info4 ⟨0, 1, 8, 2⟩ 4 true) := by decide

theorem test_decode_display :
    decode (.request 0x30 []) = .ok .waitDpyReady ∧
    decode (.request 0x31 [.u16 1, .u16 2, .u16 3, .u16 4, .u16 5]) = .ok (.dpyArea 1 2 3 4 5) ∧
    decode (.request 0x32 [.u16 1, .u16 2, .u16 3, .u16 4, .u16 5, .u32 6]) = .ok (.dpyAreaBuf 1 2 3 4 5 6) ∧
    decode (.request 0x33 [.u16 1, .u16 2, .u16 3, .u16 4, .u16 5, .optU32 (some 6), .u8 7, .u8 8])
      = .ok (.dpy1bpp 1 2 3 4 5 (some 6) 7 8) ∧
    decode (.request 0x34 []) = .ok .enhanceDrv := by decide

theorem test_decode_refresh :
    decode (.request 0x40 [.words src4, .u16 1, .u16 2, .u16 3, .u16 4, .u16 5, .u32 6, .flag true])
      = .ok (.refresh1bpp src4 1 2 3 4 5 6 true) ∧
    decode (.request 0x41 [.words src4, .u16 1, .u16 2, .u16 3, .u16 4, .u32 6, .flag false])
      = .ok (.refresh2bpp src4 1 2 3 4 6 false) ∧
    decode (.request 0x42 [.words src4, .u16 1, .u16 2, .u16 3, .u16 4, .u32 6, .flag false])
      = .ok (.refresh4bpp src4 1 2 3 4 6 false) ∧
    decode (.request 0x43 [.words src4, .u16 1, .u16 2, .u16 3, .u16 4, .u32 6, .flag false])
      = .ok (.refresh8bpp src4 1 2 3 4 6 false) ∧
    decode (.request 0x44 [.u16 1, .u16 2, .u16 3, .u16 4, .u32 6, .flag true])
      = .ok (.multiFrame1bpp 1 2 3 4 6 true) ∧
    decode (.request 0x45 [.u32 6]) = .ok (.clearRefresh 6) := by decide

theorem test_decode_lifecycle :
    decode (.request 0x50 []) = .ok .reset ∧ decode (.request 0x51 []) = .ok .sysRun ∧
    decode (.request 0x52 []) = .ok .standby ∧ decode (.request 0x53 []) = .ok .sleep ∧
    decode (.request 0x54 []) = .ok .getSysInfo ∧ decode (.request 0x55 []) = .ok .readVcom ∧
    decode (.request 0x56 [.u16 1500]) = .ok (.writeVcom 1500) ∧
    decode (.request 0x57 [.u16 1500]) = .ok (.initializeDevice 1500) ∧
    decode (.request 0x58 []) = .ok .shutdown := by decide

theorem test_decode_wire :  -- V2, V2c, V2d, V3, V3a, V7b: the wire bytes of each
    decode (.wire [0x60, 0x00, 0x00, 0x01]) = .ok (.frameFc 0x0001) ∧
    decode (.wire [0x00, 0x00, 0x12, 0x24]) = .ok (.frameFw1 0x1224) ∧
    decode (.wire [0x00, 0x00, 0x07, 0x50, 0x05, 0x7C]) = .ok (.frameFwn [0x0750, 0x057C]) ∧
    decode (.wire [0x10, 0x00, 0xAB, 0xCD, 0x12, 0x34]) = .ok .frameFr1 ∧
    decode (.wire [0x10, 0x00, 0, 0, 0x07, 0x50, 0x05, 0x7C]) = .ok (.frameFrn 2) ∧
    decode (.wire [0x01, 0x31]) = .ok (.wordLdHeader 1 3 1) := by decide

theorem test_decode_rejects :  -- R82, R83, R86, R100
    decode (.request 0x00 []) = .error .unknownOp ∧ decode (.request 0x08 []) = .error .unknownOp ∧
    decode (.request 0x59 []) = .error .unknownOp ∧ decode (.request 0xFF [.u16 0]) = .error .unknownOp ∧
    decode (.request 0x11 [.u16 0]) = .error .operandTypes ∧
    decode (.wire []) = .error .notAFrame ∧ decode (.wire [0x60, 0x00, 0x00]) = .error .notAFrame ∧
    decode (.wire [0x60, 0x00, 0, 1, 0, 2]) = .error .notAFrame ∧
    decode (.wire [0x10, 0x00, 0, 0]) = .error .notAFrame ∧
    decode (.wire [0x20, 0x00, 0, 0]) = .error .unknownPreamble ∧
    decode (.wire [0x02, 0x00]) = .error .headerBits := by decide

theorem test_decodeTableWord :
    decodeTableWord 8 0x01 = some .gate ∧ decodeTableWord 8 0x06 = some (.readBuf 0) ∧
    decodeTableWord 8 0x08 = none ∧ decodeTableWord 32 0x60000034 = some (.frameFc 0x0034) ∧
    decodeTableWord 32 0x00001224 = some (.frameFw1 0x1224) ∧ decodeTableWord 48 0 = some (.frameFwn [0, 0]) ∧
    decodeTableWord 48 0x100000000000 = some .frameFr1 ∧ decodeTableWord 16 0x1000 = some .frameFr1 ∧
    decodeTableWord 64 0x1000000000000000 = some (.frameFrn 2) ∧
    decodeTableWord 16 0x0131 = some (.wordLdHeader 1 3 1) := by decide

/-! ### Well-formedness: an ill-formed term for each check -/

theorem test_wellFormed_refuses :
    Instr.wellFormed (.frameFwn []) = false ∧ Instr.wellFormed (.frameFwn [1]) = false ∧
    Instr.wellFormed (.frameFwn [1, 2]) = true ∧ Instr.wellFormed (.frameFrn 0) = false ∧
    Instr.wellFormed (.frameFrn 1) = false ∧ Instr.wellFormed (.frameFrn 2) = true := by decide

theorem test_tags_distinct (c : Cfg) :  -- 00_scope R9: the tags of every configuration
    [c.pixfmt.bpp2, c.pixfmt.bpp3, c.pixfmt.bpp4, c.pixfmt.bpp8].Nodup ∧
    [c.rot.deg0, c.rot.deg90, c.rot.deg180, c.rot.deg270].Nodup := ⟨c.pixfmt.distinct, c.rot.distinct⟩

/-! ### The request port -/

theorem test_withFetchWord_runs :  -- the very next step runs the instruction: `NotOpen` after reset, an answer for op 0x20
    nextHas (step (State.reset.withFetchWord 8 0x01)) (fun t => t.resp == some (.refused .notOpen)) = true ∧
    nextHas (step (State.reset.withFetchWord 8 0x20)) (fun t => t.resp == some (.ok (.nat 0))) = true := by decide +kernel

theorem test_reject_stops :
    (match step (placeNext State.reset (.request 0x11 [])) with
      | .refused r => decide (r = .notARequest .operandTypes)
      | .next _ => false
      | .fault _ => false) = true := by decide +kernel

theorem test_claim_undrives_reset :  -- 10_state R25, D26: a fault of an earlier `INITIALIZE` left the pin driven (log 10)
    (match perform .claim (Job.start .gate .nothing [])
        { State.reset with rst := .driven .high, env := .tape ⟨[], [], [true]⟩ } with
      | .go _ t => t.isOpen && t.cs == .deasserted && t.rst == .undriven
      | _ => false) = true := by decide +kernel

/-! ### Witnesses: concrete states and operands that meet the hypotheses of each obligation -/

/-- A tape with nothing left on it. -/
def blank : Tape := { rdy := [], rx := [], opens := [] }

/-- An open session that will see `n` ready samples and receive the words `ws`. -/
def openFor (c : Cfg) (n : Nat) (ws : List Word) : State := session c (Env.script c n ws blank)

/-- What most completion claims ask of a state: it accepts a request and its environment follows the script. -/
theorem openFor_meets (c : Cfg) (n : Nat) (ws : List Word) :
    (openFor c n ws).Accepts ∧ (openFor c n ws).env = Env.script (openFor c n ws).cfg n ws blank :=
  ⟨⟨rfl, rfl⟩, rfl⟩

/-- An open session on the bus: `OPEN(true)` happened and one operation runs. -/
def midway (todo : List Prim) : State :=
  { session gk (.tape blank) with trace := [.opened true], seq := .running (Job.start .gate .nothing todo) }

/-- An open session in which `op` waits with `todo` still to do after `k` failed status polls; it will see `n` ready
samples and receive the words `ws`. -/
def waitingIn (c : Cfg) (op : Instr) (todo : List Prim) (k n : Nat) (ws : List Word) : State :=
  { openFor c n ws with
    seq := .running { Job.start op .nothing todo with dpyPolls := k, closeOnFault := opensSession op } }

theorem waitingIn_sound (c : Cfg) (op : Instr) (todo : List Prim) (k n : Nat) (ws : List Word)
    (h : todo.all (Prim.mayFollowWait op) = true) : (waitingIn c op todo k n ws).JobSound := by
  rintro j ⟨⟩
  exact ⟨rfl, rfl, rfl, h⟩

/-- `gk` with a bound of one poll. -/
def gk1 : Cfg := { gk with pollBound := some 1 }

/-- `gk` with a bound of three polls. -/
def gk3 : Cfg := { gk with pollBound := some 3 }

theorem witness_DecodeEncodeRoundTrip :
    Instr.wellFormed (.frameFwn [0xFFFF, 0]) = true ∧ Instr.wellFormed (.frameFrn 2) = true ∧
    Instr.wellFormed .gate = true := by decide

theorem witness_DecodedRequestEncodesBack : decode (.request 0x58 []) = .ok .shutdown := by decide

theorem witness_UnknownOpIsRefused :
    let s : State := { State.reset with port := [.request 0x59 []] }
    s.seq = .idle ∧ s.port = [.request 0x59 []] ∧ (0x59 : BitVec 8).toNat ∉ opNumbers ∧
      (0x00 : BitVec 8).toNat ∉ opNumbers := by
  exact ⟨rfl, rfl, by decide, by decide⟩

theorem witness_EmittedFramesDecode : ([0xFFFF] : List Word) ≠ [] := by decide

theorem witness_StepRunsDecodedInstr :
    (let s : State := { State.reset with port := [.request 0x20 [.u16 0xFFFF, .nat 8]] };
      s.seq = .idle ∧ s.port = .request 0x20 [.u16 0xFFFF, .nat 8] :: [] ∧
      decode (.request 0x20 [.u16 0xFFFF, .nat 8]) = .ok (.widthWords 0xFFFF 8)) ∧
    (midway [.gate]).seq = .running (Job.start .gate .nothing [.gate]) ∧
    (State.reset.seq = .idle ∧ State.reset.port = []) :=
  ⟨⟨rfl, rfl, by decide⟩, rfl, rfl, rfl⟩

theorem witness_StepKeepsHistorySafe :
    (State.reset.SafeHistory ∧ step State.reset = .next State.reset) ∧
    ((midway [.gate]).SafeHistory ∧ step (midway [.gate]) =
      .next (resumeJob (Job.start .gate .nothing [.gate]) (midway [.gate]))) := by
  refine ⟨⟨⟨_, rfl, rfl, by decide, fun _ => rfl, fun j h => by cases h⟩, rfl⟩,
    ⟨⟨{ claimed := true, scope := .outside, poised := false }, rfl, rfl, by decide, fun _ => rfl, ?_⟩, rfl⟩⟩
  intro j h
  cases h
  decide +kernel

theorem witness_StepKeepsDataWhole :
    (step (faked [(4, 1)] 0 0) = .next (faked [(4, 1)] 0 0) ∧ (faked [(4, 1)] 0 0).env.canonical = true ∧
      (faked [(4, 1)] 0 0).snapshotWhole) ∧
    (waitingIn gk (.initializeDevice 1500) [.gate, .endIfVcom 1500] 0 0 []).JobSound ∧
    ∃ t, step (waitingIn gk (.initializeDevice 1500) [.gate, .endIfVcom 1500] 0 0 []) = .next t :=
  ⟨⟨rfl, by decide, rfl⟩, waitingIn_sound _ _ _ _ _ _ rfl, _, rfl⟩

theorem witness_StepKeepsCfgHistoryAndFlag :
    let s : State := { State.reset with tmaMismatch := true }
    step s = .next s ∧ s.tmaMismatch = true := ⟨rfl, rfl⟩

theorem witness_MismatchFlagUnread :
    (exec .reset { State.reset with tmaMismatch := true }
      = .next { State.reset with tmaMismatch := true, resp := some (.refused .notOpen) } ∧
    exec .reset { State.reset with tmaMismatch := false }
      = .next { State.reset with tmaMismatch := false, resp := some (.refused .notOpen) }) ∧
    step { State.reset with tmaMismatch := true } = .next { State.reset with tmaMismatch := true } ∧
    step { State.reset with tmaMismatch := false } = .next { State.reset with tmaMismatch := false } :=
  ⟨⟨rfl, rfl⟩, rfl, rfl⟩

theorem witness_OrdinaryInstrFrame :
    ((∀ v, Instr.setTma 0xFFFFFFFF ≠ .initializeDevice v) ∧ Instr.setTma 0xFFFFFFFF ≠ .reset ∧
      Instr.setTma 0xFFFFFFFF ≠ .shutdown ∧ setsTarget .gate = false ∧
      ∃ t, exec (.setTma 0xFFFFFFFF) (openFor gk 26 [0, 0xFFFF, 0, 0xFFFF]) = .next t) ∧
    (let s := waitingIn gk .waitDpyReady (waitDpySeq gk false) 2 7 [0, 0x8000];
      s.JobSound ∧ (∃ j, s.seq = .running j ∧ (∀ v, j.op ≠ .initializeDevice v) ∧ setsTarget j.op = false) ∧
      ∃ t, step s = .next t) :=
  ⟨⟨by simp, by simp, by simp, rfl, _, rfl⟩, waitingIn_sound _ _ _ _ _ _ rfl, ⟨_, rfl, fun _ h => Instr.noConfusion h, rfl⟩,
    _, rfl⟩

theorem witness_LifecycleInstrFrame :
    (∃ t, exec .reset (openFor gk 0 []) = .next t) ∧ (∃ t, exec (.initializeDevice 1500) closedBlock = .next t) ∧
    (let s := waitingIn gk (.initializeDevice 1500) [.gate, .endIfVcom 1500] 0 0 [];
      s.JobSound ∧ (∃ j, s.seq = .running j ∧ j.op = .initializeDevice 1500) ∧ ∃ t, step s = .next t) :=
  ⟨⟨_, rfl⟩, ⟨_, rfl⟩, waitingIn_sound _ _ _ _ _ _ rfl, ⟨_, rfl, rfl⟩, _, rfl⟩

theorem witness_ClosedSessionRefuses :
    State.reset.seq = .idle ∧ State.reset.isOpen = false ∧ (∀ v, Instr.shutdown ≠ .initializeDevice v) ∧
      (∀ w b, Instr.shutdown ≠ .widthWords w b) := ⟨rfl, rfl, by simp, by simp⟩

theorem witness_BusyAndAlreadyOpenRefuse :
    (midway []).seq = .running (Job.start .gate .nothing []) ∧ (openFor gk 0 []).Accepts := ⟨rfl, rfl, rfl⟩

/-- A device-info block of a panel without pixels. -/
def info00 : Vector Word 20 := Vector.replicate 20 0

theorem witness_EmptyBufferRefused :
    let s : State := { openFor gk 0 [] with di := some info00 }
    s.Accepts ∧ s.di = some info00 ∧ (info00[0] = 0 ∨ info00[1] = 0) ∧ ({ info4 with src := [] } : LoadImageInfo).src = [] :=
  ⟨⟨rfl, rfl⟩, rfl, .inl rfl, rfl⟩

theorem witness_UnwrittenRegisterRefused :
    (openFor gk 0 []).Accepts ∧ (openFor gk 0 []).di = none ∧ (openFor gk 0 []).a2 = none := ⟨⟨rfl, rfl⟩, rfl, rfl⟩

theorem witness_GateCompletes :  -- one sample; L, L, H with no bound and with a bound of three; a wait that ends
    (let s := session gk (.tape { blank with rdy := [.high] });
      s.Accepts ∧ Level.high = s.cfg.readyLevel ∧ s.env = .tape { blank with rdy := Level.high :: blank.rdy }) ∧
    (∀ c ∈ [gk, gk3],
      let s := session c (.tape { blank with rdy := [.low, .low, .high] })
      s.Accepts ∧ Level.low ≠ s.cfg.readyLevel ∧ Level.high = s.cfg.readyLevel ∧
        (∀ b : ℕ+, s.cfg.pollBound = some b → 2 < (b : Nat)) ∧
        s.env = .tape { blank with rdy := List.replicate 2 Level.low ++ Level.high :: blank.rdy }) ∧
    (let s : State := { waitingIn gk (.sendCmd 1) [.gate, .tx 1, .cs false] 0 1 [] with cs := .asserted };
      ∃ j, s.seq = .running j ∧ j.todo = .gate :: [.tx 1, .cs false] ∧
        s.env = .tape { blank with rdy := Level.high :: blank.rdy }) := by
  refine ⟨⟨⟨rfl, rfl⟩, rfl, rfl⟩, ?_, _, rfl, rfl, rfl⟩
  intro c hc
  simp only [List.mem_cons, List.not_mem_nil, or_false] at hc
  rcases hc with rfl | rfl
  · exact ⟨⟨rfl, rfl⟩, nofun, rfl, nofun, rfl⟩
  · refine ⟨⟨rfl, rfl⟩, nofun, rfl, ?_, rfl⟩
    rintro b ⟨⟩
    decide

/-! A wait that ends, by one step -/

theorem test_gate_goes_on :  -- V1, the ready sample of L, L, H in the second gate of `SEND_CMD`
    nextHas (step { waitingIn gk (.sendCmd 1) [.gate, .tx 1, .cs false] 0 1 [] with cs := .asserted }) (fun t =>
      t.trace == [.rdy .high, .tx 0x00, .tx 0x01, .cs false] && t.resp == some (.ok .nothing) && t.seq == .idle) = true := by
  decide +kernel

theorem test_waitDpyReady_goes_on :  -- V14, the third status of 1, 1, 0
    nextHas (step (waitingIn gk .waitDpyReady (waitDpySeq gk false) 2 7 [0, 0])) (fun t =>
      frames t.trace == some (rd 0x1224 0) && t.resp == some (.ok .nothing) && t.seq == .idle) = true := by
  decide +kernel

theorem test_dpy1bpp_goes_on :  -- V6, from the last status poll on
    nextHas (step (waitingIn gk (.dpy1bpp 16 0 32 8 6 none 0xF0 0) (waitDpySeq gk true ++ clear1bppSeq gk) 2 20
        [0, 0, 0, 0x0104])) (fun t =>
      frames t.trace == some (rd 0x1224 0 ++ rd 0x113A 0x0104 ++ wr 0x113A 0x0100) &&
        t.resp == some (.ok .nothing) && t.seq == .idle) = true := by decide +kernel

theorem witness_WriteFramesComplete :
    ((openFor gk 2 []).Accepts ∧ (openFor gk 2 []).env = Env.script (openFor gk 2 []).cfg 2 [] blank) ∧
    ((openFor gk 2 []).env = Env.script (openFor gk 2 []).cfg (([0xFFFF] : List Word).length + 1) [] blank) ∧
    ((openFor gk 4 []).Accepts ∧
      (openFor gk 4 []).env = Env.script (openFor gk 4 []).cfg (([0xFFFF] : List Word).length + 3) [] blank) :=
  ⟨openFor_meets gk 2 [], rfl, openFor_meets gk 4 []⟩

theorem witness_ReadFramesComplete :
    ((openFor gk 3 [0xABCD, 0xFFFF]).Accepts ∧
      (openFor gk 3 [0xABCD, 0xFFFF]).env = Env.script (openFor gk 3 [0xABCD, 0xFFFF]).cfg 3 [0xABCD, 0xFFFF] blank) ∧
    (openFor gk 3 [0xABCD, 0xFFFF]).env
      = Env.script (openFor gk 3 [0xABCD, 0xFFFF]).cfg (([0xFFFF] : List Word).length + 2) [0xABCD, 0xFFFF] blank :=
  ⟨openFor_meets gk 3 _, rfl⟩

/-- An open session in the gate of an operation, the line answering `low` three times; `cs` is the latch. -/
def gated (c : Cfg) (cs : CsLatch) : State :=
  { session c (.tape { blank with rdy := List.replicate 3 .low }) with
    cs := cs, seq := .running (Job.start .gate .nothing [.gate, .tx 1]) }

theorem witness_WaitLoopsRunForever :  -- with no bound, and below a bound of three
    (∀ c ∈ [gk, gk3], ∀ b : ℕ+, c.pollBound = some b → 0 + 2 < (b : Nat)) ∧
    (let s := gated gk .asserted;
      s.seq = .running (Job.start .gate .nothing (.gate :: [.tx 1])) ∧
      Level.low ≠ s.cfg.readyLevel ∧ s.env = .tape { blank with rdy := List.replicate 3 .low ++ blank.rdy }) ∧
    (∀ c ∈ [gk, gk3],
      let j := { Job.start .waitDpyReady .nothing (waitDpySeq c false ++ []) with dpyPolls := 0 }
      let s : State := { openFor c 14 [0, 0x8000, 0, 0x8000] with seq := .running j }
      s.seq = .running j ∧ j.todo = waitDpySeq s.cfg false ++ [] ∧ j.gatePolls = 0 ∧ s.cs = .deasserted ∧
      (0x8000 : Word) ≠ 0 ∧ s.env = Env.script s.cfg (7 * 2) (List.replicate 2 [0, 0x8000]).flatten blank) := by
  refine ⟨?_, ⟨rfl, by decide, rfl⟩, fun _ _ => ⟨rfl, rfl, rfl, rfl, by decide, rfl⟩⟩
  intro c hc b hb
  simp only [List.mem_cons, List.not_mem_nil, or_false] at hc
  rcases hc with rfl | rfl <;> cases hb
  decide

theorem witness_GateTimeoutEndsOperation :  -- inside a frame and between frames, with and without a transport to close
    (∀ cs ∈ [CsLatch.asserted, CsLatch.deasserted], ∀ closes : Bool,
      let j := { Job.start .gate .nothing [.gate, .tx 1] with closeOnFault := closes }
      let s : State := { gated gk1 cs with seq := .running j }
      s.cfg.pollBound = some 1 ∧ ((1 : ℕ+) : Nat) ≤ j.gatePolls + 1 ∧ Level.low ≠ s.cfg.readyLevel ∧
        s.env = .tape { ({ blank with rdy := [.low, .low] } : Tape) with rdy := Level.low :: [.low, .low] } ∧
        s.seq = .running j ∧ j.todo = .gate :: [.tx 1]) ∧
    (∃ t, exec (.sendCmd 1) (scripted gk1 [.high, .low] []) = .next t ∧
      Event.rdy .low ∈ t.trace.drop (scripted gk1 [.high, .low] []).trace.length) ∧
    (let s : State := { closedBlock with cfg := gk1, env := .tape ⟨[.low], [], [true]⟩ };
      s.cfg.pollBound = some 1 ∧
      ∃ t, exec (.initializeDevice 1500) s = .next t ∧ Event.rdy .low ∈ t.trace.drop s.trace.length) :=
  ⟨fun _ _ _ => ⟨rfl, le_rfl, fun h => Level.noConfusion h, rfl, rfl, rfl⟩, ⟨_, rfl, by decide +kernel⟩,
    rfl, _, rfl, by decide +kernel⟩

theorem witness_BusyDisplayWaitsOrTimesOut :  -- no bound, a bound of three not yet hit, of one; then the third poll of three
    (∀ c ∈ [gk, gk3], (openFor c 7 [0, 0x8000]).Accepts ∧
      (openFor c 7 [0, 0x8000]).env = Env.script (openFor c 7 [0, 0x8000]).cfg 7 [0, 0x8000] blank ∧
      ∀ b : ℕ+, (openFor c 7 [0, 0x8000]).cfg.pollBound = some b → 1 < (b : Nat)) ∧
    ((openFor gk1 7 [0, 1]).Accepts ∧
      (openFor gk1 7 [0, 1]).env = Env.script (openFor gk1 7 [0, 1]).cfg 7 [0, 1] blank ∧
      (openFor gk1 7 [0, 1]).cfg.pollBound = some 1) ∧ (0x8000 : Word) ≠ 0 ∧ (1 : Word) ≠ 0 ∧
    (∀ defer : Bool,
      let j := { Job.start .waitDpyReady .nothing (waitDpySeq gk3 defer ++ []) with dpyPolls := 2 }
      let s := waitingIn gk3 .waitDpyReady (waitDpySeq gk3 defer ++ []) 2 7 [0, 1]
      s.seq = .running j ∧ j.todo = waitDpySeq s.cfg defer ++ [] ∧ j.gatePolls = 0 ∧
        s.cfg.pollBound = some 3 ∧ ((3 : ℕ+) : Nat) ≤ j.dpyPolls + 1 ∧ s.env = Env.script s.cfg 7 [0, 1] blank) := by
  refine ⟨?_, ⟨⟨rfl, rfl⟩, rfl, rfl⟩, by decide, by decide, fun _ => ⟨rfl, rfl, rfl, rfl, le_rfl, rfl⟩⟩
  intro c hc
  refine ⟨⟨rfl, rfl⟩, rfl, fun b hb => ?_⟩
  simp only [List.mem_cons, List.not_mem_nil, or_false] at hc
  rcases hc with rfl | rfl <;> cases hb
  decide

theorem witness_LateTimeoutClearsBit :  -- a bound of one; of three, first poll and third
    (let s := openFor gk1 47 [0, 0xFFFF, 0, 1, 0, 0xFFFF];
      s.Accepts ∧ s.cfg.pollBound = some 1 ∧
        s.env = Env.script s.cfg (displayGates none + 39) [0, 0xFFFF, 0, 1, 0, 0xFFFF] blank) ∧
    (let s := openFor gk1 49 [0, 0, 0, 0x8000, 0, 0];
      s.Accepts ∧ s.env = Env.script s.cfg (displayGates (some 0xFFFFFFFF) + 39) [0, 0, 0, 0x8000, 0, 0] blank) ∧
    (let s := openFor gk3 36 [0, 0, 0, 0x8000];
      s.Accepts ∧ (∀ b : ℕ+, s.cfg.pollBound = some b → 1 < (b : Nat)) ∧
        s.env = Env.script s.cfg (displayGates (some 0) + 26) [0, 0, 0, 0x8000] blank) ∧
    (let op := Instr.dpy1bpp 0 0 8 2 6 none 0xF0 0;
      let todo := waitDpySeq gk3 true ++ clear1bppSeq gk3;
      let s := waitingIn gk3 op todo 2 20 [0, 1, 0, 0xFFFF];
      s.seq = .running { Job.start op .nothing todo with dpyPolls := 2, closeOnFault := opensSession op } ∧
        todo = waitDpySeq s.cfg true ++ clear1bppSeq s.cfg ∧ s.cfg.pollBound = some 3 ∧ ((3 : ℕ+) : Nat) ≤ 2 + 1 ∧
        s.env = Env.script s.cfg 20 [0, 1, 0, 0xFFFF] blank) := by
  refine ⟨⟨⟨rfl, rfl⟩, rfl, rfl⟩, ⟨⟨rfl, rfl⟩, rfl⟩, ⟨⟨rfl, rfl⟩, ?_, rfl⟩, rfl, rfl, rfl, by decide, rfl⟩
  rintro b ⟨⟩
  decide

theorem witness_EveryInstrEndsUnderFairOracle : State.reset.seq = .idle ∧ (openFor gk 0 []).seq = .idle := ⟨rfl, rfl⟩

theorem witness_RegisterAccessCompletes :  -- at 0xFFFE the pair wraps to 0x0000
    ((openFor gk 7 [0, 0xFFFF]).Accepts ∧
      (openFor gk 7 [0, 0xFFFF]).env = Env.script (openFor gk 7 [0, 0xFFFF]).cfg 7 [0, 0xFFFF] blank) ∧
    ((openFor gk 6 []).Accepts ∧ (openFor gk 6 []).env = Env.script (openFor gk 6 []).cfg 6 [] blank) ∧
    ((openFor gk 14 [0, 1, 0, 2]).Accepts ∧
      (openFor gk 14 [0, 1, 0, 2]).env = Env.script (openFor gk 14 [0, 1, 0, 2]).cfg 14 [0, 1, 0, 2] blank) ∧
    ((openFor gk 12 []).Accepts ∧ (openFor gk 12 []).env = Env.script (openFor gk 12 []).cfg 12 [] blank) ∧
    (0xFFFE : Word) + 2 = 0 :=
  ⟨openFor_meets gk 7 _, openFor_meets gk 6 _, openFor_meets gk 14 _, openFor_meets gk 12 _, by decide⟩

theorem witness_WriteThenReadRegister :
    (let s := faked [(4, 1)] 0 0;
      s.Accepts ∧ s.env = .fake (backend [(4, 1)] 0 0) ∧ regsWf (backend [(4, 1)] 0 0).regs = true ∧
        ((0x1224 : Word) ≠ s.cfg.regDpyStatus ∨ (backend [(4, 1)] 0 0).busyLeft = 0)) ∧
    (let s := faked [] 9 0;
      s.Accepts ∧ ((0xFFFF : Word) ≠ s.cfg.regDpyStatus ∨ (backend [] 9 0).busyLeft = 0)) :=
  ⟨⟨⟨rfl, rfl⟩, rfl, by decide, .inr rfl⟩, ⟨rfl, rfl⟩, .inl (by decide)⟩

theorem witness_BackendRemembersWrites :
    let s := faked [(0, 1), (0xFFFF, 2)] 0 0
    s.Accepts ∧ s.env = .fake (backend [(0, 1), (0xFFFF, 2)] 0 0) ∧
      regsWf (backend [(0, 1), (0xFFFF, 2)] 0 0).regs = true ∧ s.cfg.cmdVcom ≠ s.cfg.cmdRegRd :=
  ⟨⟨rfl, rfl⟩, rfl, by decide, by decide⟩

theorem witness_WidthWordsCompletes : State.reset.seq = .idle ∧ (openFor gk 0 []).seq = .idle := ⟨rfl, rfl⟩

theorem witness_SetTargetCompletes :  -- read back right, and read back wrong with no fault configured
    (let s := openFor gk 26 [0, 0x36E0, 0, 0x0012];
      s.Accepts ∧ s.env = Env.script s.cfg 26 [0, 0x36E0, 0, 0x0012] blank ∧
        readBackAddr s.cfg 0x36E0 0x0012 = 0x001236E0) ∧
    (let s := openFor gk 26 [0, 0x36E1, 0, 0x0012];
      s.Accepts ∧ s.env = Env.script s.cfg 26 [0, 0x36E1, 0, 0x0012] blank ∧
        readBackAddr s.cfg 0x36E1 0x0012 ≠ 0x001236E0 ∧ s.cfg.tmaMismatchFault = false) :=
  ⟨⟨⟨rfl, rfl⟩, rfl, by decide⟩, ⟨rfl, rfl⟩, rfl, by decide, rfl⟩

/-- `gk` with a target mismatch a fault. -/
def gkTma : Cfg := { gk with tmaMismatchFault := true }

theorem witness_TargetMismatchFaults :
    (let s := openFor gkTma 26 [0, 0x36E1, 0, 0x0012];
      s.Accepts ∧ s.env = Env.script s.cfg 26 [0, 0x36E1, 0, 0x0012] blank ∧
        readBackAddr s.cfg 0x36E1 0x0012 ≠ 0x001236E0 ∧ s.cfg.tmaMismatchFault = true ∧ info4.src ≠ [] ∧
        info4.target = 0x001236E0) ∧
    (let s : State := { openFor gkTma 33 [0, 0, 0, 0x36E1, 0, 0x0012] with di := some info82 };
      s.Accepts ∧ s.env = Env.script s.cfg 33 [0, 0, 0, 0x36E1, 0, 0x0012] blank ∧ s.di = some info82 ∧
        info82[0] ≠ 0 ∧ info82[1] ≠ 0) :=
  ⟨⟨⟨rfl, rfl⟩, rfl, by decide, rfl, by decide, by decide⟩, ⟨rfl, rfl⟩, rfl, rfl, by decide, by decide⟩

theorem witness_SetTargetReadsBackOnBackend :
    (let s := faked [] 0 0;
      s.Accepts ∧ s.env = .fake (backend [] 0 0) ∧ regsWf (backend [] 0 0).regs = true ∧ (backend [] 0 0).busyLeft = 0) ∧
    (let s := faked [] 1 0;
      s.Accepts ∧ s.cfg.regDpyStatus ≠ s.cfg.regLisar ∧ s.cfg.regDpyStatus ≠ s.cfg.regLisar + 2) :=
  ⟨⟨⟨rfl, rfl⟩, rfl, by decide, rfl⟩, ⟨rfl, rfl⟩, by decide, by decide⟩

theorem witness_LoadCommandsComplete :
    ((openFor gk 4 []).Accepts ∧ (openFor gk 4 []).env = Env.script (openFor gk 4 []).cfg 4 [] blank) ∧
    ((openFor gk 8 []).Accepts ∧ (openFor gk 8 []).env = Env.script (openFor gk 8 []).cfg 8 [] blank) ∧
    ((openFor gk 2 []).Accepts ∧ (openFor gk 2 []).env = Env.script (openFor gk 2 []).cfg 2 [] blank) :=
  ⟨openFor_meets gk 4 _, openFor_meets gk 8 _, openFor_meets gk 2 _⟩

theorem witness_HostAreaWriteCompletes :
    (let s := openFor gk 41 [0, 0x36E0, 0, 0x0012];
      s.Accepts ∧ info4.src ≠ [] ∧ s.env = Env.script s.cfg (info4.src.length + 37) [0, 0x36E0, 0, 0x0012] blank ∧
        readBackAddr s.cfg 0x36E0 0x0012 = info4.target) ∧
    ∀ code ∈ [gk.cmdRegRd, gk.cmdRegWr], code ∉ [gk.cmdLdImg, gk.cmdLdImgArea, gk.cmdLdImgEnd] :=
  ⟨⟨⟨rfl, rfl⟩, by decide, rfl, by decide⟩, by simp [gk]⟩

theorem witness_WaitDpyReadyCompletes :  -- one poll; 1, 1, 0 below a bound of three; a wait that ends
    ((openFor gk 7 [0xFFFF, 0]).Accepts ∧
      (openFor gk 7 [0xFFFF, 0]).env = Env.script (openFor gk 7 [0xFFFF, 0]).cfg 7 [0xFFFF, 0] blank) ∧
    (let s := openFor gk3 21 [0, 1, 0, 1, 0, 0];
      s.Accepts ∧ (1 : Word) ≠ 0 ∧ (∀ b : ℕ+, s.cfg.pollBound = some b → 2 < (b : Nat)) ∧
        s.env = Env.script s.cfg (7 * 2 + 7) ((List.replicate 2 [0, 1]).flatten ++ [0, 0]) blank) ∧
    (let s := waitingIn gk .waitDpyReady (waitDpySeq gk false ++ []) 2 7 [0, 0];
      ∃ j, s.seq = .running j ∧ j.todo = waitDpySeq s.cfg false ++ [] ∧ j.gatePolls = 0 ∧
        s.env = Env.script s.cfg 7 [0, 0] blank) := by
  refine ⟨openFor_meets gk 7 _, ⟨⟨rfl, rfl⟩, by decide, ?_, rfl⟩, _, rfl, rfl, rfl, rfl⟩
  rintro b ⟨⟩
  decide

theorem witness_DisplayCommandsComplete :
    ((openFor gk 8 []).Accepts ∧ (openFor gk 8 []).env = Env.script (openFor gk 8 []).cfg 8 [] blank) ∧
    ((openFor gk 10 []).Accepts ∧ (openFor gk 10 []).env = Env.script (openFor gk 10 []).cfg 10 [] blank) :=
  ⟨openFor_meets gk 8 _, openFor_meets gk 10 _⟩

theorem witness_Mono1bppCompletes :  -- one poll, without and with an address; two busy polls below a bound; a wait that ends
    (let s := openFor gk 47 [0, 0xFFFF, 0, 0, 0, 0];
      s.Accepts ∧ s.env = Env.script s.cfg (displayGates none + 39) [0, 0xFFFF, 0, 0, 0, 0] blank) ∧
    (let s := openFor gk 49 [0, 0, 0, 0, 0, 0xFFFF];
      s.Accepts ∧ s.env = Env.script s.cfg (displayGates (some 0) + 39) [0, 0, 0, 0, 0, 0xFFFF] blank) ∧
    (let s := openFor gk3 61 [0, 0x0100, 0, 1, 0, 1, 0, 0, 0, 0x0104];
      s.Accepts ∧ (1 : Word) ≠ 0 ∧ (∀ b : ℕ+, s.cfg.pollBound = some b → 2 < (b : Nat)) ∧
        s.env = Env.script s.cfg (7 * 2 + (displayGates none + 39))
          ([0, 0x0100] ++ (List.replicate 2 [0, 1]).flatten ++ [0, 0, 0, 0x0104]) blank) ∧
    (let s := waitingIn gk (.dpy1bpp 16 0 32 8 6 none 0xF0 0) (waitDpySeq gk true ++ clear1bppSeq gk) 2 20
        [0, 0, 0, 0x0104];
      ∃ j, s.seq = .running j ∧ j.todo = waitDpySeq s.cfg true ++ clear1bppSeq s.cfg ∧ j.gatePolls = 0 ∧
        j.late = false ∧ s.env = Env.script s.cfg 20 [0, 0, 0, 0x0104] blank) := by
  refine ⟨⟨⟨rfl, rfl⟩, rfl⟩, ⟨⟨rfl, rfl⟩, rfl⟩, ⟨⟨rfl, rfl⟩, by decide, ?_, rfl⟩, _, rfl, rfl, rfl, rfl, rfl⟩
  rintro b ⟨⟩
  decide

theorem witness_EnhanceDrvCompletes :
    (let s := openFor gk 13 [0, 0xFFFF];
      s.Accepts ∧ s.cfg.edcReadback = false ∧ s.env = Env.script s.cfg 13 [0, 0xFFFF] blank) ∧
    (let s := openFor { gk with edcReadback := true } 20 [0, 0xFFFF, 0, 0x0602];
      s.Accepts ∧ s.cfg.edcReadback = true ∧ s.env = Env.script s.cfg 20 [0, 0xFFFF, 0, 0x0602] blank) :=
  ⟨⟨⟨rfl, rfl⟩, rfl, rfl⟩, ⟨rfl, rfl⟩, rfl, rfl⟩

theorem witness_RefreshCompletes :  -- from the default frame buffer and from the target
    ∀ hold : Bool,
      let s := openFor gk (1 + 44 + (if hold then 8 else 10)) [0, 0, 0, 0x36E0, 0, 0x0012]
      s.Accepts ∧ ([0xFFFF] : List Word) ≠ [] ∧
        s.env = Env.script s.cfg (([0xFFFF] : List Word).length + 44 + (if hold then 8 else 10))
          [0, 0, 0, 0x36E0, 0, 0x0012] blank ∧
        readBackAddr s.cfg 0x36E0 0x0012 = 0x001236E0 := by
  intro hold
  exact ⟨⟨rfl, rfl⟩, by decide, rfl, by decide +revert⟩

theorem witness_Refresh1bppCompletes :
    ∀ hold : Bool,
      let ws : List Word := [0, 0, 0, 0x36E0, 0, 0x0012, 0, 0xFFFF, 0, 0, 0, 0xFFFF]
      let s := openFor gk (1 + 83 + (if hold then 8 else 10)) ws
      s.Accepts ∧ s.env = Env.script s.cfg (([0xFFFF] : List Word).length + 83 + (if hold then 8 else 10)) ws blank ∧
        readBackAddr s.cfg 0x36E0 0x0012 = 0x001236E0 := by
  intro hold
  exact ⟨⟨rfl, rfl⟩, rfl, by decide +revert⟩

theorem witness_MultiFrameCompletes :
    ∀ hold : Bool,
      let s : State := { openFor gk (46 + (if hold then 8 else 10)) [0, 0, 0, 1, 0, 0, 0, 2] with a2 := some 6 }
      s.Accepts ∧ s.a2 = some 6 ∧
        s.env = Env.script s.cfg (46 + (if hold then 8 else 10)) [0, 0, 0, 1, 0, 0, 0, 2] blank :=
  fun _ => ⟨⟨rfl, rfl⟩, rfl, rfl⟩

theorem witness_ClearRefreshCompletes :
    let s : State := { openFor gk 56 [0, 0, 0, 0x36E0, 0, 0x0012] with di := some info82 }
    s.Accepts ∧ s.di = some info82 ∧ info82[0] ≠ 0 ∧ info82[1] ≠ 0 ∧
      s.env = Env.script s.cfg ((info82[0].toNat * 4 + 15) / 16 * info82[1].toNat + 52)
        [0, 0, 0, 0x36E0, 0, 0x0012] blank ∧
      readBackAddr s.cfg 0x36E0 0x0012 = 0x001236E0 :=
  ⟨⟨rfl, rfl⟩, rfl, by decide, by decide, rfl, by decide⟩

theorem ends_now {i : Instr} {s t : State} {r : Response} (h : exec i s = .next t) (hq : t.seq = .idle)
    (hr : t.resp = some r) : endsIn i s t r := ⟨0, t, h, rfl, hq, hr⟩

theorem witness_CompositeIsItsExpansion :  -- two parts, each ended at once
    let s := openFor gk 4 []
    let u := s.ended ⟨[.high, .high], [], []⟩ (cmdFrame gk gk.cmdLdImg) .nothing
    s.Accepts ∧ expansionOf s (.ldImgStart info4) = some [.sendCmd gk.cmdLdImg, .sendData (hdr info4)] ∧
      runsTo [.sendCmd gk.cmdLdImg, .sendData (hdr info4)] s (u.ended blank (dataFrame gk [hdr info4]) .nothing)
        [.nothing, .nothing] := by
  intro s u
  have hu : exec (.sendCmd gk.cmdLdImg) s = .next u := congrArg Host.Outcome.next (by decide +kernel)
  have ht : exec (.sendData (hdr info4)) u = .next (u.ended blank (dataFrame gk [hdr info4]) .nothing) :=
    congrArg Host.Outcome.next (by decide +kernel)
  exact ⟨⟨rfl, rfl⟩, rfl, u, _, _, rfl, ends_now hu rfl rfl, _, _, _, rfl, ends_now ht rfl rfl, rfl, rfl⟩

theorem witness_CompositeIsItsExpansion_waits :  -- a part that waits once
    let s := scripted gk [.low, .high, .high] []
    s.Accepts ∧ expansionOf s .ldImgEnd = some [.sendCmd gk.cmdLdImgEnd] ∧
      runsTo [.sendCmd gk.cmdLdImgEnd] s (s.ended blank (.rdy .low :: cmdFrame gk gk.cmdLdImgEnd) .nothing) [.nothing] := by
  intro s
  have hs : s.ended blank (.rdy .low :: cmdFrame gk gk.cmdLdImgEnd) .nothing =
      resumeJob { Job.start (.sendCmd gk.cmdLdImgEnd) .nothing (sendCmdSeq gk.cmdLdImgEnd) with gatePolls := 1 }
        { s with trace := [.rdy .low], env := .tape ⟨[.high, .high], [], []⟩, resp := none } := by decide +kernel
  have h : endsIn (.sendCmd gk.cmdLdImgEnd) s (s.ended blank (.rdy .low :: cmdFrame gk gk.cmdLdImgEnd) .nothing)
      (.ok .nothing) :=
    ⟨1, _, rfl, ⟨fun h => (nomatch h), _, rfl, hs⟩, rfl, rfl⟩
  exact ⟨⟨rfl, rfl⟩, rfl, _, _, _, rfl, h, rfl, rfl⟩

theorem witness_CompositeIsItsExpansion_faults :  -- the second part faults
    let s := scripted gk1 [.high, .high, .low] []
    let u := s.ended ⟨[.low], [], []⟩ (cmdFrame gk gk.cmdLdImg) .nothing
    runsTo [.sendCmd gk.cmdLdImg] s u [.nothing] ∧
      endsIn (.sendData (hdr info4)) u
        { u with trace := u.trace ++ [.rdy .low], env := .tape blank, resp := some (.fault (.waitTimeout .gate)) }
        (.fault (.waitTimeout .gate)) ∧
      ∀ r, exec (.ldImgStart info4) s ≠ .next (s.refuse r) := by
  intro s u
  have hu : exec (.sendCmd gk.cmdLdImg) s = .next u := congrArg Host.Outcome.next (by decide +kernel)
  refine ⟨⟨u, _, _, rfl, ends_now hu rfl rfl, rfl, rfl⟩,
    ends_now (congrArg Host.Outcome.next (by decide +kernel)) rfl rfl, fun r h => ?_⟩
  have h1 : nextHas (exec (.ldImgStart info4) s) (fun t => t.trace.isEmpty) = false := by decide +kernel
  rw [h] at h1
  exact Bool.noConfusion h1

theorem witness_ResetCompletes : (faked [] 0 0).Accepts ∧ (openFor gk 0 []).Accepts := ⟨⟨rfl, rfl⟩, rfl, rfl⟩

theorem witness_ModeCommandsComplete :
    (openFor gk 2 []).Accepts ∧ (openFor gk 2 []).env = Env.script (openFor gk 2 []).cfg 2 [] blank := openFor_meets gk 2 _

theorem witness_SysInfoCompletes :
    let s := openFor gk 24 (0xFFFF :: info82.toList)
    s.Accepts ∧ info82.toList.length = 20 ∧ s.env = Env.script s.cfg 24 (0xFFFF :: info82.toList) blank :=
  ⟨⟨rfl, rfl⟩, rfl, rfl⟩

theorem witness_VcomCompletes :
    ((openFor gk 7 [0, 0xFFFF]).Accepts ∧
      (openFor gk 7 [0, 0xFFFF]).env = Env.script (openFor gk 7 [0, 0xFFFF]).cfg 7 [0, 0xFFFF] blank) ∧
    ((openFor gk 6 []).Accepts ∧ (openFor gk 6 []).env = Env.script (openFor gk 6 []).cfg 6 [] blank) :=
  ⟨openFor_meets gk 7 _, openFor_meets gk 6 _⟩

/-- A closed block whose `INITIALIZE` will see `n` ready samples and receive `ws`. -/
def closedFor (c : Cfg) (n : Nat) (ws : List Word) (ok : Bool) : State :=
  { State.reset with cfg := c, env := Env.script c n ws { blank with opens := [ok] } }

theorem witness_InitializeCompletes :  -- the VCOM read differs, and is the same; each kind of wait
    (let s := closedFor gk 46 (0 :: info82.toList ++ [0, 2000]) true;
      s.seq = .idle ∧ s.isOpen = false ∧
        s.env = Env.script s.cfg (39 + initWaitGates s.cfg + (if (2000 : Word) = 1500 then 0 else 6))
          (0 :: info82.toList ++ initWaitWords s.cfg 0 ++ [0, 2000]) { blank with opens := true :: blank.opens }) ∧
    (let s := closedFor { gk with initWaitKind := .displayReady } 46 (0 :: info82.toList ++ [0, 0] ++ [0, 1500]) true;
      s.seq = .idle ∧ s.isOpen = false ∧
        s.env = Env.script s.cfg (39 + initWaitGates s.cfg + (if (1500 : Word) = 1500 then 0 else 6))
          (0 :: info82.toList ++ initWaitWords s.cfg 0 ++ [0, 1500]) { blank with opens := true :: blank.opens }) ∧
    ((closedFor gk 0 [] true).env.opens (closedFor gk 0 [] true).trace).1 = true :=
  ⟨⟨rfl, rfl, rfl⟩, ⟨rfl, rfl, rfl⟩, rfl⟩

theorem witness_InitializeOpenFails :
    let s := closedFor gk 0 [] false
    s.seq = .idle ∧ s.isOpen = false ∧ (s.env.opens s.trace).1 = false := ⟨rfl, rfl, rfl⟩

theorem witness_InitializeFaultReleases :  -- a failed open, a gate timeout after a granted one, one after a wait
    (∃ t, exec (.initializeDevice 0) (closedFor gk 0 [] false) = .next t ∧
      t.resp = some (.fault .transportOpenFailed)) ∧
    (∃ t, exec (.initializeDevice 0) { closedFor gk1 0 [] true with env := .tape ⟨[.low], [], [true]⟩ } = .next t ∧
      t.resp = some (.fault (.waitTimeout .gate))) ∧
    (let s : State := { waitingIn gk1 (.initializeDevice 0) [.gate] 0 0 [] with env := .tape ⟨[.low], [], []⟩ };
      s.JobSound ∧ (∃ j, s.seq = .running j ∧ j.op = .initializeDevice 0) ∧
      ∃ t, step s = .next t ∧ t.resp = some (.fault (.waitTimeout .gate))) :=
  ⟨⟨_, rfl, rfl⟩, ⟨_, rfl, by decide +kernel⟩, by rintro j ⟨⟩; exact ⟨rfl, rfl, rfl, rfl⟩, ⟨_, rfl, rfl⟩, _, rfl,
    by decide +kernel⟩

theorem witness_FastModeResolution :
    versionString gk.versionCharOrder (lutWords info82) = [0x4D, 0x36, 0x34, 0x31] ∧
    versionString gk.versionCharOrder (lutWords info00) ≠ [0x4D, 0x36, 0x34, 0x31] ∧
    gk.versionCharOrder = .highFirst ∧ (openFor gk 0 []).cfg = gk ∧
    ({ Job.start .gate .nothing [] with got := info82.toList } : Job).got = info82.toList ∧
    ({ openFor gk 0 [] with a2 := some 4 } : State).a2 = some 4 :=
  ⟨by decide +kernel, by decide +kernel, rfl, rfl, rfl, rfl⟩

theorem witness_DeviceInfoDecode : ({ faked [] 0 0 with di := some info82 } : State).di = some info82 := rfl

theorem witness_ShutdownCompletes : (faked [] 0 0).Accepts ∧ (openFor gk 0 []).Accepts := ⟨⟨rfl, rfl⟩, rfl, rfl⟩

theorem witness_WireRowsComplete :
    ((openFor gk 2 []).Accepts ∧ (openFor gk 2 []).env = Env.script (openFor gk 2 []).cfg 2 [] blank) ∧
    ((openFor gk 3 []).Accepts ∧
      (openFor gk 3 []).env = Env.script (openFor gk 3 []).cfg (([0xFFFF, 0] : List Word).length + 1) [] blank) ∧
    ((openFor gk 3 [0, 0xFFFF]).Accepts ∧
      (openFor gk 3 [0, 0xFFFF]).env = Env.script (openFor gk 3 [0, 0xFFFF]).cfg 3 [0, 0xFFFF] blank) ∧
    ((openFor gk 4 [0, 0xFFFF, 1]).Accepts ∧
      (openFor gk 4 [0, 0xFFFF, 1]).env
        = Env.script (openFor gk 4 [0, 0xFFFF, 1]).cfg (([0xFFFF, 1] : List Word).length + 2) [0, 0xFFFF, 1] blank) :=
  ⟨openFor_meets gk 2 _, openFor_meets gk 3 _, openFor_meets gk 3 _, openFor_meets gk 4 _⟩

end Sys2Proof.Tests
end

section
/-!
PROOFS. The scope of the model (00_scope): every instruction answers a next state.
-/

namespace Sys2Proof.Machine

open Sys2Proof

/-- Settles O17: a refusal, the answer of `WIDTH_WORDS` and the run of a sequence (`exec_cases`) are each a next state,
whatever becomes of the run (00_scope R14, 60_exceptions R229, R230). -/
theorem everyInstrAnswersNext : Obligations.EveryInstrAnswersNext := by
  intro i s
  obtain ⟨r, refused⟩ | ⟨w, b, -, -, answered⟩ | ⟨-, -, ran⟩ := exec_cases i s
  · exact ⟨_, refused⟩
  · exact ⟨_, answered⟩
  · exact ⟨_, ran⟩

end Sys2Proof.Machine
end

section
/-!
PROOFS. The state of the block (10_state): what a step runs, the reset values, the unwritten session registers.
-/

namespace Sys2Proof.Machine

open Sys2Proof

/-! ### What a step runs (10_state R27) -/

/-- A step of an idle block with nothing on its port changes nothing. -/
theorem step_waiting {s : State} (idle : s.seq = .idle) (nothingNext : s.port = []) : step s = .next s := by
  simp [step, fetch, idle, nothingNext]

/-- A step of an idle block takes the item its port gives next and runs the instruction it decodes to. -/
theorem step_decoded {s : State} {item : PortItem} {rest : List PortItem} {i : Instr} (idle : s.seq = .idle)
    (onPort : s.port = item :: rest) (decoded : decode item = .ok i) : step s = exec i { s with port := rest } := by
  simp [step, fetch, idle, onPort, decoded]

/-- A step of an idle block refuses an unknown op number and stops at any other item that is no instruction. -/
theorem step_undecoded {s : State} {item : PortItem} {rest : List PortItem} {why : DecodeError} (idle : s.seq = .idle)
    (onPort : s.port = item :: rest) (undecoded : decode item = .error why) :
    step s = if why = .unknownOp then refuseUnknown { s with port := rest } else .refused (.notARequest why) := by
  cases why <;> simp [step, fetch, idle, onPort, undecoded]

/-- Settles O10: an idle block runs the next item (`step_decoded`) or waits (`step_waiting`), and an operation in
progress goes on before the port is looked at (`step_running`). -/
theorem stepRunsDecodedInstr : Obligations.StepRunsDecodedInstr :=
  ⟨fun _ _ _ _ => step_decoded, fun _ _ => step_running, fun _ => step_waiting⟩

/-! ### The reset values (10_state R20, 70 R245) -/

/-- Settles O11: each field of `State.reset` is the value its rule names. -/
theorem resetValues : Obligations.ResetValues := ⟨rfl, rfl, rfl, rfl, rfl, rfl, rfl, rfl⟩

/-! ### Unwritten session registers (10_state R38, 60 R226) -/

/-- In an open idle session a request is refused for the first reason its operation gives. -/
theorem openRequest_refuses {s : State} (ready : s.Accepts) (r : Refusal) (rs : List (Option Refusal)) (j : Job) :
    s.openRequest (some r :: rs) j = .next (s.refuse r) := by
  simp [State.openRequest, State.request, State.busyCheck, State.openCheck, firstRefusal, ready.idle, ready.session]

theorem clearRefresh_unwritten {s : State} (t : DWord) (ready : s.Accepts) (unwritten : s.di = none) :
    exec (.clearRefresh t) s = .next (s.refuse .unwrittenRegister) := by
  simp only [exec, execClearRefresh, unwritten]
  exact openRequest_refuses ready _ _ _

theorem multiFrame1bpp_unwritten {s : State} (x y w h : Word) (t : DWord) (hold : Bool) (ready : s.Accepts)
    (unwritten : s.a2 = none) : exec (.multiFrame1bpp x y w h t hold) s = .next (s.refuse .unwrittenRegister) := by
  simp only [exec, execMultiFrame1bpp, unwritten]
  exact openRequest_refuses ready _ _ _

theorem sessionReg_unwritten {s : State} (i : Fin 21) (noInfo : s.di = none) (noMode : s.a2 = none) :
    s.sessionReg i = .refused .unwrittenRegister := by
  unfold State.sessionReg
  split
  · rw [noInfo]
  · rw [noMode]

/-- Settles O23: `CLEAR_REFRESH` reads `S.DI`, `MULTI_FRAME_1BPP` reads `S.A2`, and the host's read reads one of the two;
each is refused where that register is none. -/
theorem unwrittenRegisterRefused : Obligations.UnwrittenRegisterRefused :=
  ⟨fun _ t => clearRefresh_unwritten t, fun _ x y w h t hold => multiFrame1bpp_unwritten x y w h t hold,
    fun _ => sessionReg_unwritten⟩

end Sys2Proof.Machine
end

section
/-!
PROOFS. Nothing reads the mismatch flag (10_state R26): a run of the block with the flag up is the run with it down,
with the flag put up in every state it passes.
-/

namespace Sys2Proof.Machine

open Sys2Proof

/-- `s` with the mismatch flag up. -/
def State.flagged (s : State) : State := { s with tmaMismatch := true }

@[simp] theorem flagged_cfg (s : State) : s.flagged.cfg = s.cfg := rfl
@[simp] theorem flagged_di (s : State) : s.flagged.di = s.di := rfl
@[simp] theorem flagged_a2 (s : State) : s.flagged.a2 = s.a2 := rfl
@[simp] theorem flagged_cs (s : State) : s.flagged.cs = s.cs := rfl
@[simp] theorem flagged_isOpen (s : State) : s.flagged.isOpen = s.isOpen := rfl

/-- A flow with the mismatch flag up in its state. -/
def Flow.flagged : Flow → Flow
  | .go j s => .go j s.flagged
  | .hold again j s => .hold again j s.flagged
  | .done j s => .done j s.flagged
  | .raise f j s => .raise f j s.flagged

/-- An outcome with the mismatch flag up in the next state. -/
def flaggedOutcome : Host.Outcome State Fault Refusal → Host.Outcome State Fault Refusal
  | .next s => .next s.flagged
  | .fault f => .fault f
  | .refused r => .refused r

theorem backOff_flagged (s : State) : s.flagged.backOff = s.backOff.flagged := by
  unfold State.backOff
  rw [flagged_cfg]
  cases s.cfg.pollSleep <;> rfl

theorem storeDeviceInfo_flagged (j : Job) (s : State) :
    storeDeviceInfo j s.flagged = (storeDeviceInfo j s).flagged := by
  unfold storeDeviceInfo
  split <;> rfl

theorem raiseFault_flagged (f : Fault) (j : Job) (s : State) :
    raiseFault f j s.flagged = (raiseFault f j s).flagged := by
  unfold raiseFault
  rw [flagged_isOpen]
  cases j.closeOnFault && s.isOpen <;> rfl

theorem pollGate_flagged (j : Job) (s : State) : pollGate j s.flagged = (pollGate j s).flagged := by
  have sampled : s.flagged.sample = (s.sample.1, s.sample.2.flagged) := rfl
  unfold pollGate
  simp only [sampled, flagged_cfg, flagged_cs, backOff_flagged]
  split
  · rfl
  · split
    · split <;> rfl
    · rfl

theorem pollDisplay_flagged (defer : Bool) (j : Job) (s : State) :
    pollDisplay defer j s.flagged = (pollDisplay defer j s).flagged := by
  unfold pollDisplay
  simp only [flagged_cfg, backOff_flagged]
  split
  · split
    · split <;> rfl
    · rfl
  · rfl

theorem checkTma_flagged (t : DWord) (j : Job) (s : State) : checkTma t j s.flagged = (checkTma t j s).flagged := by
  have noted : ∀ d, s.flagged.noteMismatch d = (s.noteMismatch d).flagged := fun d => by
    simp [State.noteMismatch, State.flagged]
  unfold checkTma
  simp only [flagged_cfg, noted]
  split <;> rfl

theorem claimTransport_flagged (j : Job) (s : State) : claimTransport j s.flagged = (claimTransport j s).flagged := by
  have asked : s.flagged.askOpen = (s.askOpen.1, s.askOpen.2.flagged) := rfl
  unfold claimTransport
  simp only [asked]
  split <;> rfl

/-- Each primitive leads the same way whatever the flag is: `SET_TMA`'s check alone touches it, and only ever puts it
up. -/
theorem perform_flagged (p : Prim) (j : Job) (s : State) : perform p j s.flagged = (perform p j s).flagged := by
  cases p with
  | gate => exact pollGate_flagged j s
  | dpyTest defer => exact pollDisplay_flagged defer j s
  | tmaCheck t => exact checkTma_flagged t j s
  | claim => exact claimTransport_flagged j s
  | storeInfo => exact congrArg (Flow.go j) (storeDeviceInfo_flagged j s)
  | raiseLate => simp only [perform]; split <;> rfl
  | endIfVcom v => simp only [perform]; split <;> rfl
  | _ => rfl

theorem runPrims_flagged (ps : List Prim) (j : Job) (s : State) :
    runPrims ps j s.flagged = (runPrims ps j s).flagged := by
  induction ps generalizing j s with
  | nil => rfl
  | cons p ps ih =>
    rw [runPrims_cons, runPrims_cons, perform_flagged]
    cases perform p j s with
    | go j' s' => exact ih j' s'
    | hold again j' s' => rfl
    | done j' s' => rfl
    | raise f j' s' => exact raiseFault_flagged f j' s'

theorem request_flagged (s : State) (rs : List (Option Refusal)) (j : Job) :
    s.flagged.request rs j = flaggedOutcome (s.request rs j) := by
  have same : firstRefusal (s.flagged.busyCheck :: rs) = firstRefusal (s.busyCheck :: rs) := rfl
  unfold State.request
  rw [same]
  cases firstRefusal (s.busyCheck :: rs) with
  | some r => rfl
  | none => exact congrArg Host.Outcome.next (runPrims_flagged j.todo j { s with resp := none })

theorem openRequest_flagged (s : State) (rs : List (Option Refusal)) (j : Job) :
    s.flagged.openRequest rs j = flaggedOutcome (s.openRequest rs j) := request_flagged s (s.openCheck :: rs) j

theorem answer_flagged (s : State) (v : Value) : s.flagged.answer v = flaggedOutcome (s.answer v) := by
  have same : s.flagged.busyCheck = s.busyCheck := rfl
  unfold State.answer
  rw [same]
  cases s.busyCheck <;> rfl

theorem exec_flagged (i : Instr) (s : State) : exec i s.flagged = flaggedOutcome (exec i s) := by
  cases i with
  | widthWords w b => exact answer_flagged s _
  | initializeDevice v => exact request_flagged s _ _
  | multiFrame1bpp x y w h t hold =>
    simp only [exec, execMultiFrame1bpp, flagged_a2]
    cases s.a2 <;> exact openRequest_flagged s _ _
  | clearRefresh t =>
    simp only [exec, execClearRefresh, flagged_di]
    cases s.di <;> exact openRequest_flagged s _ _
  | _ => exact openRequest_flagged s _ _

theorem step_flagged (s : State) : step s.flagged = flaggedOutcome (step s) := by
  cases now : s.seq with
  | running j =>
    rw [step_running now, step_running (s := s.flagged) now]
    exact congrArg Host.Outcome.next (runPrims_flagged j.todo j { s with seq := .idle })
  | idle =>
    cases onPort : s.port with
    | nil => rw [step_waiting now onPort, step_waiting (s := s.flagged) now onPort]; rfl
    | cons item rest =>
      cases decoded : decode item with
      | ok i =>
        rw [step_decoded now onPort decoded, step_decoded (s := s.flagged) now onPort decoded]
        exact exec_flagged i { s with port := rest }
      | error why =>
        rw [step_undecoded now onPort decoded, step_undecoded (s := s.flagged) now onPort decoded]
        cases why <;> rfl

theorem flaggedOutcome_next {o : Host.Outcome State Fault Refusal} {t u : State} (up : flaggedOutcome o = .next t)
    (down : o = .next u) : u.flagged = t := by
  subst down
  exact Host.Outcome.next.inj up

/-- Settles O16: the outcome with the flag up is the outcome with it down and the flag then put up, for an instruction
(`exec_flagged`) and for a step (`step_flagged`). -/
theorem mismatchFlagUnread : Obligations.MismatchFlagUnread := by
  refine ⟨fun i s t u up down => ?_, fun s t u up down => ?_⟩
  · have both := exec_flagged i { s with tmaMismatch := false }
    exact flaggedOutcome_next (both.symm.trans up) down
  · have both := step_flagged { s with tmaMismatch := false }
    exact flaggedOutcome_next (both.symm.trans up) down

end Sys2Proof.Machine
end

section
/-!
PROOFS. What the ordinary operations leave unchanged (10_state R20 to R27): an operation made of primitives that may
stand in a waiting operation, other than those of `INITIALIZE`, keeps the session, its registers and the reset pin.
-/

namespace Sys2Proof.Machine

open Sys2Proof

/-! ### Sequences of primitives that may follow a wait -/

section
variable (op : Instr)

@[simp] theorem payloadSeq_mayFollow (ws : List Word) : (payloadSeq ws).all (Prim.mayFollowWait op) = true := by
  induction ws with
  | nil => rfl
  | cons w ws ih => exact ih

@[simp] theorem receiveSeq_mayFollow (n : Nat) : (receiveSeq n).all (Prim.mayFollowWait op) = true := by
  induction n with
  | zero => rfl
  | succ n ih => exact ih

@[simp] theorem sendCmdSeq_mayFollow (code : Word) : (sendCmdSeq code).all (Prim.mayFollowWait op) = true := rfl

@[simp] theorem sendDataSeq_mayFollow (v : Word) : (sendDataSeq v).all (Prim.mayFollowWait op) = true := rfl

@[simp] theorem readDataSeq_mayFollow : readDataSeq.all (Prim.mayFollowWait op) = true := rfl

@[simp] theorem sendBufSeq_mayFollow (ws : List Word) : (sendBufSeq ws).all (Prim.mayFollowWait op) = true := by
  simp [sendBufSeq, Prim.mayFollowWait]

@[simp] theorem readBufSeq_mayFollow (n : Nat) : (readBufSeq n).all (Prim.mayFollowWait op) = true := by
  simp [readBufSeq, Prim.mayFollowWait]

@[simp] theorem sendCmdArgsSeq_mayFollow (code : Word) (ws : List Word) :
    (sendCmdArgsSeq code ws).all (Prim.mayFollowWait op) = true := by
  simp [sendCmdArgsSeq]

variable (c : Cfg)

@[simp] theorem readRegSeq_mayFollow (a : Word) : (readRegSeq c a).all (Prim.mayFollowWait op) = true := rfl

@[simp] theorem writeRegSeq_mayFollow (a v : Word) : (writeRegSeq c a v).all (Prim.mayFollowWait op) = true := rfl

@[simp] theorem waitDpySeq_mayFollow (defer : Bool) : (waitDpySeq c defer).all (Prim.mayFollowWait op) = true := rfl

@[simp] theorem displaySeq_mayFollow (x y w h m : Word) (t : Option DWord) :
    (displaySeq c x y w h m t).all (Prim.mayFollowWait op) = true := by
  cases t <;> exact sendCmdArgsSeq_mayFollow op _ _

@[simp] theorem dpy1bppSeq_mayFollow (x y w h m : Word) (t : Option DWord) (bg fg : Byte) :
    (dpy1bppSeq c x y w h m t bg fg).all (Prim.mayFollowWait op) = true := by
  simp [dpy1bppSeq, clear1bppSeq, writeMaskedSeq, Prim.mayFollowWait]

@[simp] theorem enhanceDrvSeq_mayFollow : (enhanceDrvSeq c).all (Prim.mayFollowWait op) = true := by
  unfold enhanceDrvSeq
  split <;> rfl

/-- The check of the target address may stand in the operations that contain `SET_TMA` only. -/
@[simp] theorem setTmaSeq_mayFollow (t : DWord) :
    (setTmaSeq c t).all (Prim.mayFollowWait op) = setsTarget op := by
  unfold setTmaSeq
  split <;> simp [Prim.mayFollowWait]

@[simp] theorem hostAreaWriteSeq_mayFollow (info : LoadImageInfo) (a : AreaImageInfo) :
    (hostAreaWriteSeq c info a).all (Prim.mayFollowWait op) = setsTarget op := by
  simp [hostAreaWriteSeq, ldImgAreaStartSeq, ldImgEndSeq]

end

/-- The instructions but `RESET`, `INITIALIZE` and `SHUTDOWN`, which alone drive the reset pin or change the session. -/
def ordinary : Instr → Bool
  | .reset | .initializeDevice _ | .shutdown => false
  | _ => true

theorem opensSession_of_ordinary {i : Instr} (h : ordinary i = true) : opensSession i = false := by
  cases i with
  | initializeDevice v => cases h
  | _ => rfl

/-- The whole sequence of an ordinary instruction is made of primitives that may follow a wait. -/
theorem bodyOf_mayFollow (s : State) (i : Instr) (h : ordinary i = true) :
    (bodyOf s i).all (Prim.mayFollowWait i) = true := by
  cases i with
  | reset | initializeDevice | shutdown => cases h
  | multiFrame1bpp =>
    simp only [bodyOf]
    split <;> simp [multiFrameSeq]
  | clearRefresh =>
    simp only [bodyOf]
    split <;> simp [clearRefreshSeq, setsTarget]
  | _ =>
    simp [bodyOf, Prim.mayFollowWait, setsTarget, readReg32Seq, writeReg32Seq, ldImgStartSeq, ldImgAreaStartSeq, ldImgEndSeq,
      refresh1bppSeq, refreshSeq, getSysInfoSeq, readVcomSeq, writeVcomSeq]

/-! ### What one primitive, and a run, keeps -/

/-- `t` has the session flag, the session registers and the reset pin of `s`, and the mismatch flag too unless the
target address was set. -/
structure SessionKept (sets : Bool) (s t : State) : Prop where
  isOpen : t.isOpen = s.isOpen
  di : t.di = s.di
  a2 : t.a2 = s.a2
  rst : t.rst = s.rst
  flag : sets = false → t.tmaMismatch = s.tmaMismatch

theorem SessionKept.trans {sets : Bool} {s t u : State} (h : SessionKept sets s t) (h' : SessionKept sets t u) :
    SessionKept sets s u :=
  ⟨h'.isOpen.trans h.isOpen, h'.di.trans h.di, h'.a2.trans h.a2, h'.rst.trans h.rst,
    fun e => (h'.flag e).trans (h.flag e)⟩

theorem perform_keepsSession {op : Instr} {p : Prim} (j : Job) (s : State) (notInit : opensSession op = false)
    (follows : p.mayFollowWait op = true) : SessionKept (setsTarget op) s (perform p j s).state := by
  cases p with
  | claim | release | rst | sleep => cases follows
  | storeInfo | endIfVcom => cases notInit.symm.trans follows
  | gate =>
    rcases pollGate_cases j s with ⟨-, e⟩ | ⟨-, -, e⟩ | ⟨-, -, e⟩ <;> simp only [perform, e, Flow.state]
    · constructor <;> simp
    · split <;> constructor <;> simp
    · constructor <;> simp
  | dpyTest defer =>
    rcases pollDisplay_cases defer j s with ⟨-, e⟩ | ⟨-, -, -, e⟩ | ⟨-, -, -, e⟩ | ⟨-, -, e⟩ <;>
      simp only [perform, e, Flow.state] <;> constructor <;> simp
  | tmaCheck t =>
    have sets : setsTarget op = true := follows
    obtain ⟨r, d, -, -, ⟨e, -⟩ | ⟨e, -⟩⟩ := checkTma_cases t j s <;> simp only [perform, e, Flow.state] <;>
      constructor <;> simp [sets]
  | raiseLate => simp only [perform]; split <;> constructor <;> simp [Flow.state]
  | _ => constructor <;> simp [perform, Flow.state]

/-- A fault outside `INITIALIZE` keeps the session. -/
theorem raiseFault_keepsSession (sets : Bool) (f : Fault) {j : Job} (s : State) (stays : j.closeOnFault = false) :
    SessionKept sets s (raiseFault f j s) := by
  obtain ⟨same, -⟩ | ⟨-, -, -, closes, -⟩ := raiseFault_session f j s
  · constructor <;> simp [same]
  · cases stays.symm.trans closes

theorem runPrims_keepsSession {op : Instr} (ps : List Prim) (j : Job) (s : State) (notInit : opensSession op = false)
    (follow : ps.all (Prim.mayFollowWait op) = true) (stays : j.closeOnFault = false) :
    SessionKept (setsTarget op) s (runPrims ps j s) := by
  induction ps generalizing j s with
  | nil => constructor <;> simp
  | cons p ps ih =>
    rw [List.all_cons, Bool.and_eq_true] at follow
    obtain ⟨first, rest⟩ := follow
    have kept := perform_keepsSession j s notInit first
    have closes : (perform p j s).job.closeOnFault = false := by
      obtain ⟨-, same, -⟩ := perform_inside p j s (by rintro rfl; cases first) (by rintro rfl; cases first)
      exact same.trans stays
    rw [runPrims_cons]
    generalize perform p j s = flow at kept closes
    cases flow with
    | go j' s' => exact kept.trans (ih j' s' rest closes)
    | hold again j' s' => exact kept.trans ⟨rfl, rfl, rfl, rfl, fun _ => rfl⟩
    | done j' s' => exact kept.trans ⟨rfl, rfl, rfl, rfl, fun _ => rfl⟩
    | raise f j' s' => exact kept.trans (raiseFault_keepsSession _ f s' closes)

/-! ### What an instruction, and a step that goes on, keeps -/

/-- The frame of an ordinary operation: the session, the configuration and the port stay, and the history only grows. -/
structure OrdinaryFrame (sets : Bool) (s t : State) : Prop extends SessionKept sets s t where
  cfg : t.cfg = s.cfg
  port : t.port = s.port
  history : s.trace <+: t.trace

/-- A run within an ordinary operation has its frame, whatever the sequencer and the response were when it began. -/
theorem runPrims_ordinaryFrame {op : Instr} (ps : List Prim) (j : Job) (s : State) (q : Seq) (r : Option Response)
    (notInit : opensSession op = false) (follow : ps.all (Prim.mayFollowWait op) = true)
    (stays : j.closeOnFault = false) :
    OrdinaryFrame (setsTarget op) s (runPrims ps j { s with seq := q, resp := r }) := by
  obtain ⟨isOpen, di, a2, rst, flag⟩ :=
    runPrims_keepsSession ps j { s with seq := q, resp := r } notInit follow stays
  obtain ⟨cfg, port, history⟩ := runPrims_frame ps j { s with seq := q, resp := r }
  exact ⟨⟨isOpen, di, a2, rst, flag⟩, cfg, port, history⟩

theorem respond_ordinaryFrame (sets : Bool) (s : State) (r : Option Response) :
    OrdinaryFrame sets s { s with resp := r } :=
  ⟨⟨rfl, rfl, rfl, rfl, fun _ => rfl⟩, rfl, rfl, List.prefix_rfl⟩

theorem exec_ordinaryFrame {i : Instr} {s t : State} (h : ordinary i = true) (answers : exec i s = .next t) :
    OrdinaryFrame (setsTarget i) s t := by
  have notInit := opensSession_of_ordinary h
  obtain ⟨r, e⟩ | ⟨w, b, -, -, e⟩ | ⟨-, -, e⟩ := exec_cases i s <;> cases e.symm.trans answers
  · exact respond_ordinaryFrame _ s _
  · exact respond_ordinaryFrame _ s _
  · exact runPrims_ordinaryFrame _ _ s s.seq none notInit (bodyOf_mayFollow s i h) notInit

theorem step_ordinaryFrame {s t : State} {j : Job} (sound : s.JobSound) (running : s.seq = .running j)
    (notInit : opensSession j.op = false) (answers : step s = .next t) : OrdinaryFrame (setsTarget j.op) s t := by
  obtain ⟨-, -, closes, rest⟩ := sound j running
  cases (step_running running).symm.trans answers
  exact runPrims_ordinaryFrame j.todo j s .idle s.resp notInit rest (closes.trans notInit)

theorem OrdinaryFrame.fields {sets : Bool} {s t : State} (f : OrdinaryFrame sets s t) :
    t.isOpen = s.isOpen ∧ t.di = s.di ∧ t.a2 = s.a2 ∧ t.rst = s.rst ∧ t.cfg = s.cfg ∧ t.port = s.port ∧
      s.trace <+: t.trace ∧ (sets = false → t.tmaMismatch = s.tmaMismatch) :=
  ⟨f.isOpen, f.di, f.a2, f.rst, f.cfg, f.port, f.history, f.flag⟩

theorem opensSession_eq_false {i : Instr} (h : ∀ v, i ≠ .initializeDevice v) : opensSession i = false := by
  cases i with
  | initializeDevice v => exact absurd rfl (h v)
  | _ => rfl

theorem ordinary_eq_true {i : Instr} (h1 : ∀ v, i ≠ .initializeDevice v) (h2 : i ≠ .reset) (h3 : i ≠ .shutdown) :
    ordinary i = true := by
  cases i with
  | initializeDevice v => exact absurd rfl (h1 v)
  | reset => exact absurd rfl h2
  | shutdown => exact absurd rfl h3
  | _ => rfl

/-- Settles O18: an ordinary instruction (`exec_ordinaryFrame`) runs, and a step that goes on with any operation but
`INITIALIZE` (`step_ordinaryFrame`) resumes, a sequence whose every primitive keeps the session. -/
theorem ordinaryInstrFrame : Obligations.OrdinaryInstrFrame :=
  ⟨fun _ _ _ notInit notReset notShutdown answers =>
      (exec_ordinaryFrame (ordinary_eq_true notInit notReset notShutdown) answers).fields,
    fun _ _ _ sound running notInit answers =>
      (step_ordinaryFrame sound running (opensSession_eq_false notInit) answers).fields⟩

end Sys2Proof.Machine
end

section
/-!
PROOFS. Words on the wire (20_memory): the two transmitting primitives send bits 15:8 before bits 7:0, and no other
primitive transmits a byte.
-/

namespace Sys2Proof.Machine

open Sys2Proof

/-! ### Updates that transmit nothing -/

/-- The history of `t` is that of `s` and events none of which transmits a byte. -/
def TransmitsNothing (s t : State) : Prop := ∃ evs, t.trace = s.trace ++ evs ∧ ∀ b, .tx b ∉ evs

theorem TransmitsNothing.of_trace_eq {s t : State} (same : t.trace = s.trace) : TransmitsNothing s t :=
  ⟨[], by simp [same], by simp⟩

theorem TransmitsNothing.trans {s t u : State} (first : TransmitsNothing s t) (second : TransmitsNothing t u) :
    TransmitsNothing s u := by
  obtain ⟨evs, grown, quiet⟩ := first
  obtain ⟨evs', grown', quiet'⟩ := second
  exact ⟨evs ++ evs', by simp [grown', grown], by simp [quiet, quiet']⟩

theorem sample_transmitsNothing (s : State) : TransmitsNothing s s.sample.2 := ⟨_, sample_trace s, by simp⟩

theorem setCs_transmitsNothing (s : State) (on : Bool) : TransmitsNothing s (s.setCs on) :=
  ⟨_, setCs_trace s on, by simp⟩

theorem backOff_transmitsNothing (s : State) : TransmitsNothing s s.backOff := ⟨_, backOff_trace s, by simp⟩

theorem rxWord_transmitsNothing (s : State) : TransmitsNothing s s.rxWord.2 := ⟨_, rxWord_trace s, by simp⟩

/-! ### One primitive -/

theorem pollGate_transmitsNothing (j : Job) (s : State) : TransmitsNothing s (pollGate j s).state := by
  have sampled := sample_transmitsNothing s
  obtain ⟨-, ready⟩ | ⟨-, -, timeout⟩ | ⟨-, -, again⟩ := pollGate_cases j s
  · rw [ready]
    exact sampled
  · rw [timeout, Flow.state]
    split
    · exact sampled.trans (setCs_transmitsNothing _ false)
    · exact sampled
  · rw [again]
    exact sampled.trans (backOff_transmitsNothing _)

theorem pollDisplay_transmitsNothing (defer : Bool) (j : Job) (s : State) :
    TransmitsNothing s (pollDisplay defer j s).state := by
  obtain ⟨-, e⟩ | ⟨-, -, -, e⟩ | ⟨-, -, -, e⟩ | ⟨-, -, e⟩ := pollDisplay_cases defer j s <;> rw [e]
  case inr.inr.inr => exact backOff_transmitsNothing s
  all_goals exact .of_trace_eq rfl

theorem checkTma_transmitsNothing (target : DWord) (j : Job) (s : State) :
    TransmitsNothing s (checkTma target j s).state := by
  obtain ⟨r, d, -, -, ⟨e, -⟩ | ⟨e, -⟩⟩ := checkTma_cases target j s <;> rw [e] <;>
    exact .of_trace_eq (noteMismatch_trace s d)

theorem claimTransport_transmitsNothing (j : Job) (s : State) : TransmitsNothing s (claimTransport j s).state := by
  obtain ⟨-, e⟩ | ⟨-, e⟩ := claimTransport_cases j s <;> rw [e] <;> exact ⟨_, askOpen_trace s, by simp⟩

/-- Each primitive but `tx` and `txMasked` samples, receives, moves a pin, sleeps, opens or closes, or does not touch
the bus. -/
theorem perform_transmitsNothing {p : Prim} (j : Job) (s : State) (notTx : ∀ w, p ≠ .tx w)
    (notMasked : ∀ on, p ≠ .txMasked on) : TransmitsNothing s (perform p j s).state := by
  cases p with
  | tx w => exact absurd rfl (notTx w)
  | txMasked on => exact absurd rfl (notMasked on)
  | gate => exact pollGate_transmitsNothing j s
  | dpyTest defer => exact pollDisplay_transmitsNothing defer j s
  | tmaCheck target => exact checkTma_transmitsNothing target j s
  | claim => exact claimTransport_transmitsNothing j s
  | rxDummy | rxWord => exact rxWord_transmitsNothing s
  | cs on => exact setCs_transmitsNothing s on
  | rst l => exact ⟨_, setRst_trace s l, by simp⟩
  | sleep d => exact ⟨_, emit_trace s (.sleep d), by simp⟩
  | release => exact ⟨_, releaseTransport_trace s, by simp⟩
  | storeInfo => exact .of_trace_eq (storeDeviceInfo_trace j s)
  | raiseLate | endIfVcom v => simp only [perform]; split <;> exact .of_trace_eq rfl

/-- Settles O8: `tx` and `txMasked` send their word by `State.txWord`, high byte first (`txWord_trace`), and every
other primitive sends nothing (`perform_transmitsNothing`). -/
theorem wordsCrossHighByteFirst : Obligations.WordsCrossHighByteFirst := by
  intro w on j s
  refine ⟨⟨s.txWord w, rfl, txWord_trace s w⟩, ⟨s.txWord (with1bpp s.cfg on j.last), rfl, txWord_trace s _⟩, ?_⟩
  exact fun _ => perform_transmitsNothing j s

end Sys2Proof.Machine
end

section
/-!
PROOFS. Packed words (30_encoding R86, R94, R95): the header word, the grey pair and the mode-select bit, bit by bit.
-/

namespace Sys2Proof.Machine

open Sys2Proof

/-! ### The image-load header word (R86) -/

/-- The header word bit by bit: rotation tag, pixel-format tag, endian tag, and no bit above them. -/
theorem headerWord_getLsbD (e : BitVec 1) (p q : BitVec 4) (k : Nat) :
    (headerWord e p q).getLsbD k =
      if k < 4 then q.getLsbD k else if k < 8 then p.getLsbD (k - 4) else e.getLsbD (k - 8) := by
  by_cases inRot : k < 4
  · have inByte : k < 8 := by omega
    have inWord : k < 16 := by omega
    simp [headerWord, inRot, inByte, inWord]
  · have noRot : q.getLsbD k = false := BitVec.getLsbD_of_ge q k (by omega)
    by_cases inPixel : k < 8
    · have inWord : k < 16 := by omega
      simp [headerWord, inRot, inPixel, inWord, noRot]
    · have noPixel : p.getLsbD (k - 4) = false := BitVec.getLsbD_of_ge p _ (by omega)
      by_cases inWord : k < 16
      · simp [headerWord, inRot, inPixel, inWord, noRot, noPixel]
      · have noEndian : e.getLsbD (k - 8) = false := BitVec.getLsbD_of_ge e _ (by omega)
        simp [headerWord, inRot, inPixel, noRot, noPixel, noEndian]

theorem headerWord_upperBits (e : BitVec 1) (p q : BitVec 4) : (headerWord e p q).extractLsb' 9 7 = 0 := by
  ext i hi
  rw [BitVec.getElem_extractLsb', headerWord_getLsbD, if_neg (by omega), if_neg (by omega),
    BitVec.getLsbD_of_ge e _ (by omega), BitVec.ofNat_eq_ofNat, BitVec.getElem_zero]

theorem headerWord_endian (e : BitVec 1) (p q : BitVec 4) : (headerWord e p q).extractLsb' 8 1 = e := by
  ext i hi
  rw [BitVec.getElem_extractLsb', headerWord_getLsbD, if_neg (by omega), if_neg (by omega), Nat.add_sub_cancel_left,
    BitVec.getLsbD_eq_getElem]

theorem headerWord_pixfmt (e : BitVec 1) (p q : BitVec 4) : (headerWord e p q).extractLsb' 4 4 = p := by
  ext i hi
  rw [BitVec.getElem_extractLsb', headerWord_getLsbD, if_neg (by omega), if_pos (by omega), Nat.add_sub_cancel_left,
    BitVec.getLsbD_eq_getElem]

theorem headerWord_rot (e : BitVec 1) (p q : BitVec 4) : (headerWord e p q).extractLsb' 0 4 = q := by
  ext i hi
  rw [BitVec.getElem_extractLsb', headerWord_getLsbD, if_pos (by omega), Nat.zero_add, BitVec.getLsbD_eq_getElem]

/-- The shifted tags share no bit, so `or` and `+` join them alike. -/
theorem headerWord_eq_add (e : BitVec 1) (p q : BitVec 4) :
    headerWord e p q = (e.zeroExtend 16 <<< 8) + (p.zeroExtend 16 <<< 4) + q.zeroExtend 16 := by
  have endianApart : (e.zeroExtend 16 <<< 8) &&& (p.zeroExtend 16 <<< 4) = 0#16 := by
    ext i hi
    simp only [BitVec.getElem_and, BitVec.getElem_shiftLeft, BitVec.getElem_zero]
    by_cases high : i < 8
    · simp [high]
    · have noPixel : p.getLsbD (i - 4) = false := BitVec.getLsbD_of_ge p _ (by omega)
      simp [noPixel]
  have rotApart : ((e.zeroExtend 16 <<< 8) ||| (p.zeroExtend 16 <<< 4)) &&& q.zeroExtend 16 = 0#16 := by
    ext i hi
    simp only [BitVec.getElem_and, BitVec.getElem_or, BitVec.getElem_shiftLeft, BitVec.getElem_zero]
    by_cases high : i < 4
    · have inByte : i < 8 := by omega
      simp [high, inByte]
    · have noRot : q.getLsbD i = false := BitVec.getLsbD_of_ge q _ (by omega)
      simp [noRot]
  rw [headerWord, BitVec.add_eq_or_of_and_eq_zero _ _ endianApart, BitVec.add_eq_or_of_and_eq_zero _ _ rotApart]

/-- Settles O5: each field is read off the bits of the header word (`headerWord_getLsbD`), and no two tags overlap
(`headerWord_eq_add`). -/
theorem headerWordFields : Obligations.HeaderWordFields := fun e p q =>
  ⟨headerWord_upperBits e p q, headerWord_endian e p q, headerWord_pixfmt e p q, headerWord_rot e p q,
    headerWord_eq_add e p q⟩

/-! ### The grey pair (R94) -/

theorem ofBytes_getLsbD (a b : Byte) (k : Nat) :
    (ofBytes a b).getLsbD k = if k < 8 then b.getLsbD k else a.getLsbD (k - 8) :=
  BitVec.getLsbD_append.trans (by simp)

/-- `zext_16(a) << 8 | zext_16(b)` is the word with the bytes `a` and `b`. -/
theorem shifted_or_eq_ofBytes (a b : Byte) : (a.zeroExtend 16 <<< 8) ||| b.zeroExtend 16 = ofBytes a b := by
  ext i hi
  rw [← BitVec.getLsbD_eq_getElem hi, ← BitVec.getLsbD_eq_getElem hi, ofBytes_getLsbD]
  by_cases low : i < 8
  · simp [low, hi]
  · have noLow : b.getLsbD i = false := BitVec.getLsbD_of_ge b i (by omega)
    simp [low, hi, noLow]

/-- Settles O6: for each value of `BGVR_FG_HIGH` the grey pair is a word of two bytes (`shifted_or_eq_ofBytes`). -/
theorem greyPairBytes : Obligations.GreyPairBytes := by
  intro c bg fg
  unfold bgvr
  cases c.bgvrFgHigh with
  | true =>
    rw [if_pos rfl, shifted_or_eq_ofBytes]
    exact ⟨hiByte_ofBytes fg bg, loByte_ofBytes fg bg⟩
  | false =>
    rw [if_neg Bool.false_ne_true, shifted_or_eq_ofBytes]
    exact ⟨hiByte_ofBytes bg fg, loByte_ofBytes bg fg⟩

/-! ### The mode-select bit (R95) -/

/-- `BIT_1BPP` has exactly its own bit set. -/
theorem mask1bpp_getElem (c : Cfg) (i : Fin 16) : (mask1bpp c)[i] = decide (i = c.bit1bpp) := by
  rw [show mask1bpp c = BitVec.twoPow 16 c.bit1bpp from rfl, Fin.getElem_fin, BitVec.getElem_twoPow]
  simp [Fin.ext_iff]

/-- Settles O7: the mask is set at the mode-select bit and clear at every other (`mask1bpp_getElem`). -/
theorem modeSelectBitOnly : Obligations.ModeSelectBitOnly := by
  intro c v i
  have mask := mask1bpp_getElem c i
  by_cases selected : i = c.bit1bpp
  · simp_all [with1bpp]
  · simp_all [with1bpp]

end Sys2Proof.Machine
end

section
/-!
PROOFS. Decoding and encoding (30_encoding R83, R86, R99, R100): a request is told by its op number and its operand
record, wire bytes by their preamble, and each encoding is read back.
-/

namespace Sys2Proof.Machine

open Sys2Proof

/-! ### Frames from their bytes (R83) -/

theorem classify_command (c : Word) : classify (bytesOf [Config.preCmd, c]) [] = .ok (.command c) :=
  classify_words Config.preCmd [c] []

theorem classify_write (d : Word) (ds : List Word) :
    classify (bytesOf (Config.preWr :: d :: ds)) [] = .ok (.write (d :: ds)) :=
  classify_words Config.preWr (d :: ds) []

theorem classify_read (x r : Word) (rs : List Word) :
    classify (wordBytes Config.preRd) (bytesOf (x :: r :: rs)) = .ok (.read x (r :: rs)) :=
  classify_words Config.preRd [] (x :: r :: rs)

/-- A frame that opens with another word than the read preamble receives nothing. -/
theorem splitFrame_transmitted {p : Word} (ws : List Word) (notRead : p ≠ Config.preRd) :
    splitFrame (bytesOf (p :: ws)) = (bytesOf (p :: ws), []) := by
  refine if_neg fun sameBytes => notRead ?_
  have sameWords := congrArg pairUp (show bytesOf [p] = bytesOf [Config.preRd] from sameBytes)
  rw [pairUp_bytesOf, pairUp_bytesOf] at sameWords
  simpa using sameWords

/-- A read frame receives all that follows its preamble. -/
theorem splitFrame_read (ws : List Word) :
    splitFrame (bytesOf (Config.preRd :: ws)) = (wordBytes Config.preRd, bytesOf ws) := rfl

/-- Two words or more are no header word, so they are read as a frame. -/
theorem decodeWire_words (p w : Word) (ws : List Word) :
    decodeWire (bytesOf (p :: w :: ws)) =
      (classify (splitFrame (bytesOf (p :: w :: ws))).1 (splitFrame (bytesOf (p :: w :: ws))).2).map instrOfFrame := rfl

theorem decodeWire_command (c : Word) : decodeWire (bytesOf [Config.preCmd, c]) = .ok (.frameFc c) := by
  rw [decodeWire_words, splitFrame_transmitted _ (by decide), classify_command]
  rfl

theorem decodeWire_write (d : Word) (ds : List Word) :
    decodeWire (bytesOf (Config.preWr :: d :: ds)) = .ok (instrOfFrame (.write (d :: ds))) := by
  rw [decodeWire_words, splitFrame_transmitted _ (by decide), classify_write]
  rfl

theorem decodeWire_read (x r : Word) (rs : List Word) :
    decodeWire (bytesOf (Config.preRd :: x :: r :: rs)) = .ok (instrOfFrame (.read x (r :: rs))) := by
  rw [decodeWire_words, splitFrame_read, classify_read]
  rfl

theorem decodeWire_header (e : BitVec 1) (p q : BitVec 4) :
    decodeWire (wordBytes (headerWord e p q)) = .ok (.wordLdHeader e p q) := by
  show decodeHeader (ofBytes (hiByte (headerWord e p q)) (loByte (headerWord e p q))) = _
  rw [ofBytes_wordBytes, decodeHeader, headerWord_upperBits, headerWord_endian, headerWord_pixfmt, headerWord_rot,
    if_pos rfl]

/-- Settles O1: a request's op number and record are matched as they stand, and a wire row's bytes are read back as its
frame (`decodeWire_command`, `decodeWire_write`, `decodeWire_read`) or its header word (`decodeWire_header`). -/
theorem decodeEncodeRoundTrip : Obligations.DecodeEncodeRoundTrip := by
  intro i wellFormed
  cases i with
  | frameFc c => exact decodeWire_command c
  | frameFw1 d => exact decodeWire_write d []
  | frameFwn ds =>
    match ds, wellFormed with
    | d :: d' :: ds, _ => exact decodeWire_write d (d' :: ds)
  | frameFr1 => exact decodeWire_read 0 0 []
  | frameFrn n =>
    obtain ⟨m, rfl⟩ := Nat.exists_eq_add_of_le' (of_decide_eq_true wellFormed)
    show decodeWire (bytesOf (Config.preRd :: 0 :: 0 :: 0 :: List.replicate m 0)) = _
    rw [decodeWire_read]
    simp [instrOfFrame]
  | wordLdHeader e p q => exact decodeWire_header e p q
  | _ => rfl

/-! ### Requests (R99, R100) -/

/-- Row by row of R99: the instruction of a request encodes to that op number and that record. -/
theorem encode_of_requestOf {op : Nat} {args : List Operand} {i : Instr} (meaning : requestOf op args = some i) :
    encode i = .request (BitVec.ofNat 8 op) args := by
  revert meaning
  fun_cases requestOf op args <;> intro meaning <;> cases meaning <;> rfl

/-- Row by row of R99: only its op numbers have a meaning. -/
theorem mem_opNumbers_of_requestOf {op : Nat} {args : List Operand} {i : Instr} (meaning : requestOf op args = some i) :
    op ∈ opNumbers := by
  revert meaning
  fun_cases requestOf op args <;> intro meaning <;> cases meaning <;> decide

/-- Only the op numbers of R99 have operands. -/
theorem signature_eq_none {op : Nat} (unknown : op ∉ opNumbers) : signature op = none := by
  revert unknown
  fun_cases signature op <;> intro unknown
  case case38 => rfl
  all_goals exact absurd (by decide) unknown

theorem requestOf_of_decode {op : BitVec 8} {args : List Operand} {i : Instr}
    (decoded : decode (.request op args) = .ok i) : requestOf op.toNat args = some i := by
  change decodeRequest op args = _ at decoded
  unfold decodeRequest at decoded
  split at decoded
  case h_1 meaning =>
    cases decoded
    exact meaning
  all_goals cases decoded

theorem decode_unknownOp {op : BitVec 8} (args : List Operand) (unknown : op.toNat ∉ opNumbers) :
    decode (.request op args) = .error .unknownOp := by
  have noMeaning : requestOf op.toNat args = none :=
    Option.eq_none_iff_forall_ne_some.mpr fun _ meaning => unknown (mem_opNumbers_of_requestOf meaning)
  show decodeRequest op args = _
  rw [decodeRequest, noMeaning, signature_eq_none unknown]

/-- Settles O2: a decoded request is one of the rows of `requestOf`, each of which `encode` writes back. -/
theorem decodedRequestEncodesBack : Obligations.DecodedRequestEncodesBack := by
  intro op args i decoded
  simpa using encode_of_requestOf (requestOf_of_decode decoded)

/-- Settles O4: an op number outside R99 decodes to `UnknownOp` (`decode_unknownOp`), which an idle block's step refuses
(`step_undecoded`). -/
theorem unknownOpIsRefused : Obligations.UnknownOpIsRefused := by
  intro s op args rest idle onPort unknown
  rw [step_undecoded idle onPort (decode_unknownOp args unknown), if_pos rfl]
  rfl

/-- Settles O3: each is one run of the decoder; the last two are in the opcode table's number form (log 8). -/
theorem specWordsDecode : Obligations.SpecWordsDecode := ⟨rfl, rfl, rfl, rfl, rfl, rfl, rfl, rfl, rfl⟩

end Sys2Proof.Machine
end

section
/-!
PROOFS. Wire decoding of a trace (30_encoding R81, R83, R103): the frames that the framing layer emits are read back,
word by word within their chip-select scope.
-/

namespace Sys2Proof.Machine

open Sys2Proof

/-! ### Words within a scope -/

theorem framesFrom_ready (c : Cfg) (scope : Option (List Byte × List Byte)) (es : List Event) :
    framesFrom scope (readyEvent c :: es) = framesFrom scope es := by
  rcases scope with _ | ⟨tx, _ | _⟩ <;> rfl

theorem framesFrom_opens (es : List Event) : framesFrom none (.cs true :: es) = framesFrom (some ([], [])) es := rfl

theorem framesFrom_txWord (tx : List Byte) (w : Word) (es : List Event) :
    framesFrom (some (tx, [])) (txEvents w ++ es) = framesFrom (some (tx ++ wordBytes w, [])) es := by
  show framesFrom (some ((tx ++ [hiByte w]) ++ [loByte w], [])) es = _
  rw [List.append_assoc]
  rfl

theorem framesFrom_rxByte (tx rx : List Byte) (b : Byte) (es : List Event) :
    framesFrom (some (tx, rx)) (.rx b :: es) = framesFrom (some (tx, rx ++ [b])) es := by
  cases rx <;> rfl

theorem framesFrom_rxWord (tx rx : List Byte) (w : Word) (es : List Event) :
    framesFrom (some (tx, rx)) (rxEvents w ++ es) = framesFrom (some (tx, rx ++ wordBytes w)) es := by
  show framesFrom (some (tx, rx)) (.rx (hiByte w) :: .rx (loByte w) :: es) = _
  rw [framesFrom_rxByte, framesFrom_rxByte, List.append_assoc]
  rfl

theorem framesFrom_payload (c : Cfg) (tx : List Byte) (ws : List Word) (es : List Event) :
    framesFrom (some (tx, [])) (ws.flatMap (fun w => readyEvent c :: txEvents w) ++ es) =
      framesFrom (some (tx ++ bytesOf ws, [])) es := by
  induction ws generalizing tx with
  | nil => simp [bytesOf]
  | cons w ws ih =>
    simp only [List.flatMap_cons, List.append_assoc, List.cons_append, framesFrom_ready, framesFrom_txWord, ih]
    rfl

theorem framesFrom_received (c : Cfg) (tx rx : List Byte) (ws : List Word) (es : List Event) :
    framesFrom (some (tx, rx)) (ws.flatMap (fun w => readyEvent c :: rxEvents w) ++ es) =
      framesFrom (some (tx, rx ++ bytesOf ws)) es := by
  induction ws generalizing rx with
  | nil => simp [bytesOf]
  | cons w ws ih =>
    simp only [List.flatMap_cons, List.append_assoc, List.cons_append, framesFrom_ready, framesFrom_rxWord, ih]
    rfl

/-- At the end of its scope a frame is what its bytes are classified as. -/
theorem framesFrom_closes {tx rx : List Byte} {f : WireFrame} (isFrame : classify tx rx = .ok f) :
    framesFrom (some (tx, rx)) [.cs false] = some [f] := by
  cases rx <;> simp [framesFrom, isFrame]

/-! ### Whole frames -/

theorem frames_outFrame (c : Cfg) {p : Word} {ws : List Word} {f : WireFrame}
    (isFrame : classify (bytesOf (p :: ws)) [] = .ok f) : frames (outFrame c p ws) = some [f] := by
  simp only [frames, outFrame, List.cons_append, List.append_assoc, framesFrom_ready, framesFrom_opens,
    framesFrom_txWord, framesFrom_payload]
  exact framesFrom_closes isFrame

theorem frames_readFrame (c : Cfg) {d : Word} {ws : List Word} {f : WireFrame}
    (isFrame : classify (wordBytes Config.preRd) (bytesOf (d :: ws)) = .ok f) :
    frames (readFrame c d ws) = some [f] := by
  simp only [frames, readFrame, List.cons_append, List.append_assoc, framesFrom_ready, framesFrom_opens,
    framesFrom_txWord, framesFrom_received]
  exact framesFrom_closes isFrame

/-- Settles O9: the bytes in the scope of an emitted frame are those of its words (`frames_outFrame`,
`frames_readFrame`), and the preamble tells which frame they are (`classify_command`, `classify_write`,
`classify_read`). -/
theorem emittedFramesDecode : Obligations.EmittedFramesDecode := by
  intro c code d ws
  refine ⟨frames_outFrame c (classify_command code), fun full => ?_, fun full => ?_⟩
  · obtain ⟨w, ws, rfl⟩ := List.exists_cons_of_ne_nil full
    exact frames_outFrame c (classify_write w ws)
  · obtain ⟨w, ws, rfl⟩ := List.exists_cons_of_ne_nil full
    exact frames_readFrame c (classify_read d w ws)

end Sys2Proof.Machine
end

section
/-!
PROOFS. The wire rows (30_encoding R83, R86; log 7) and the composite operations (R102).
-/

namespace Sys2Proof.Machine

open Sys2Proof

/-! ### A request against a script that it uses up -/

/-- An accepted request whose sequence takes exactly the script's ready samples and words ends with the events of that
sequence and the value of the words received. -/
theorem openRequest_scripted {s : State} (ready : s.Accepts) {rs : List (Option Refusal)}
    (accepted : firstRefusal rs = none) {op : Instr} {ret : Ret} {body : List Prim} {n : Nat} {ws : List Word} {e : Tape}
    {evs : List Event} {j : Job} (answers : s.env = Env.script s.cfg n ws e)
    (run : runPrims (body ++ []) (Job.start op ret body)
        (({ s with resp := none } : State).put (Env.script s.cfg n ws e) s.cs []) =
      runPrims [] j (({ s with resp := none } : State).put (Env.script s.cfg 0 [] e) .deasserted ([] ++ evs))) :
    s.openRequest rs (Job.start op ret body) = .next (s.ended e evs (j.ret.value j.got)) := by
  have begins : ({ s with resp := none } : State) =
      ({ s with resp := none } : State).put (Env.script s.cfg n ws e) s.cs [] := by
    rw [← answers]
    exact put_self _
  rw [List.append_nil] at run
  rw [openRequest_runs ready accepted, begins]
  refine congrArg Host.Outcome.next (run.trans ?_)
  rw [script_zero]
  simp [finish, State.put, State.ended, ready.idle]

/-- A buffer with a word in it is not refused. -/
theorem emptyCheck_full {ws : List Word} (full : ws ≠ []) : firstRefusal [emptyCheck ws.length] = none := by
  simp [firstRefusal, emptyCheck, full]

/-- Settles O60: each wire row runs the sequence of one frame, which a script of as many gates and words answers. -/
theorem wireRowsComplete : Obligations.WireRowsComplete := by
  intro s e v d ws en p q ready
  refine ⟨fun answers => ⟨?_, ?_, ?_⟩, fun answers full => ?_, fun answers => ?_, fun answers full => ?_⟩
  · exact openRequest_scripted ready rfl answers (script_sendCmd rfl v)
  · exact openRequest_scripted ready rfl answers (script_sendData rfl v)
  · exact openRequest_scripted ready rfl answers (script_sendData rfl _)
  · exact openRequest_scripted ready (emptyCheck_full full) (by simpa using answers) (script_sendBuf (n := 0) rfl ws)
  · exact openRequest_scripted ready rfl answers (script_readData rfl d v)
  · exact openRequest_scripted ready (emptyCheck_full full) (by simpa using answers)
      (script_readBuf (n := 0) (ws := []) rfl d ws)

/-! ### Composite operations (R102) -/

theorem opensSession_of_composite {i : Instr} {parts : List Instr} {s : State}
    (expands : expansionOf s i = some parts) : opensSession i = false := by
  cases i with
  | initializeDevice v => cases expands
  | _ => rfl

theorem jobOf_settles (s : State) (i : Instr) : (jobOf s i).Settles [] := ⟨.inl rfl, .inl rfl, .inl rfl⟩

/-- Parts that end ok end the composite ok: it runs their sequences (`parts_end`) unless its buffer is empty, and then a
part would have been refused. -/
theorem composite_endsOk {i : Instr} {parts : List Instr} {s t : State} {vs : List Value} (ready : s.Accepts)
    (expands : expansionOf s i = some parts) (run : runsTo parts s t vs) :
    endsIn i s { t with resp := some (.ok (resultOf i vs)) } (.ok (resultOf i vs)) := by
  obtain ⟨ms, -, sequence, result⟩ := composite_parts expands
  obtain runs | ⟨p, isPart, refuses⟩ := composite_runs expands ready
  · obtain ⟨-, idle, n, j, gs, goes, -, -, ret, got, rfl, lengths⟩ :=
      parts_end sequence [] rfl ready.idle run (jobOf_settles s i) (opensSession_of_composite expands)
    have value : j.ret.value j.got = resultOf i (List.zipWith (fun p g => (retOf p).value g) parts gs) := by
      rw [result gs lengths, ret, got]
      rfl
    rw [List.append_nil, runPrims_nil, finish, value, ← idle] at goes
    exact ⟨n, _, runs, goes, idle, rfl⟩
  · exact (refused_part run ready.idle isPart refuses).elim

/-- A part that faults after parts that ended ok faults in the composite, if that is accepted at all. -/
theorem composite_faults {i p : Instr} {before after : List Instr} {s u t : State} {vs : List Value} {f : Fault}
    (ready : s.Accepts) (expands : expansionOf s i = some (before ++ p :: after)) (run : runsTo before s u vs)
    (faults : endsIn p u t (.fault f)) (accepted : ∀ r, exec i s ≠ .next (s.refuse r)) : endsIn i s t (.fault f) := by
  obtain ⟨ms, -, sequence, -⟩ := composite_parts expands
  obtain ⟨r, refused⟩ | ⟨w, b, rfl, -, -⟩ | ⟨-, -, runs⟩ := exec_cases i s
  · exact absurd refused (accepted r)
  · cases expands
  · obtain ⟨idle, resp, n, goes⟩ := parts_fault sequence rfl ready.idle run faults (jobOf_settles s i)
      (opensSession_of_composite expands)
    exact ⟨n, _, runs, goes, idle, resp⟩

/-- Settles O49: the composite's job performs each part as the part's own job does, to an end that is ok
(`composite_endsOk`) or a fault (`composite_faults`). -/
theorem compositeIsItsExpansion : Obligations.CompositeIsItsExpansion := by
  intro i parts s ready expands
  refine ⟨fun t vs => composite_endsOk ready expands, ?_⟩
  rintro before after p u t vs f rfl
  exact composite_faults ready expands

end Sys2Proof.Machine
end

section
/-!
PROOFS. The safe form of an event history (40_framing R128, 45_lifecycle R207): every sequence is made of whole frames,
each primitive keeps the history safe where it may stand, and so does every step.
-/

namespace Sys2Proof.Machine

open Sys2Proof

/-! ### Scanning a history (R128, 45 R207) -/

theorem scanFrom_append (c : Cfg) (k : Scan) (es fs : List Event) :
    scanFrom c k (es ++ fs) = (scanFrom c k es).bind (fun k' => scanFrom c k' fs) := by
  induction es generalizing k with
  | nil => rfl
  | cons e es ih =>
    simp only [List.cons_append, scanFrom]
    cases scanEvent c k e with
    | none => rfl
    | some k' => exact ih k'

theorem scanFrom_singleton (c : Cfg) (k : Scan) (e : Event) : scanFrom c k [e] = scanEvent c k e := by
  rw [scanFrom]
  cases scanEvent c k e <;> rfl

/-- An event that neither opens nor closes the transport and does not move chip-select. -/
def isInner : Event → Bool
  | .opened _ | .closed | .cs _ => false
  | .rst _ | .rdy _ | .tx _ | .rx _ | .sleep _ => true

/-- Two ends of histories that are both in the session or both not, and both in a scope or both not. -/
structure Scan.Alongside (k k' : Scan) : Prop where
  claimed : k'.claimed = k.claimed
  scope : k'.scope = .outside ↔ k.scope = .outside

theorem scopeOf_ne_outside (w : Word) : scopeOf w ≠ some .outside := by
  unfold scopeOf
  split_ifs <;> simp

theorem scanEvent_inner {c : Cfg} {k k' : Scan} {e : Event} (inner : isInner e = true)
    (scans : scanEvent c k e = some k') : k.Alongside k' := by
  obtain ⟨claimed, scope, poised⟩ := k
  cases e with
  | opened | closed | cs => cases inner
  | rst | rdy | sleep =>
    simp only [scanEvent, Option.ite_none_right_eq_some, Option.some.injEq] at scans
    obtain ⟨-, rfl⟩ := scans
    exact ⟨rfl, .rfl⟩
  | rx b =>
    cases scope <;>
      simp only [scanEvent, reduceCtorEq, Option.ite_none_right_eq_some, Option.some.injEq] at scans
    case read => obtain ⟨-, rfl⟩ := scans; exact ⟨rfl, by simp⟩
    case readHalf => subst scans; exact ⟨rfl, by simp⟩
  | tx b =>
    cases scope <;>
      simp only [scanEvent, reduceCtorEq, Option.ite_none_right_eq_some, Option.some.injEq,
        Option.map_eq_some_iff] at scans
    case half a =>
      obtain ⟨sc, preamble, rfl⟩ := scans
      exact ⟨rfl, by simpa using fun e => scopeOf_ne_outside _ (e ▸ preamble)⟩
    case cmdOpen | write => obtain ⟨-, rfl⟩ := scans; exact ⟨rfl, by simp⟩
    case fresh | cmdHalf | writeHalf => subst scans; exact ⟨rfl, by simp⟩

theorem scanFrom_inner {c : Cfg} {k k' : Scan} {es : List Event} (inner : es.all isInner = true)
    (scans : scanFrom c k es = some k') : k.Alongside k' := by
  induction es generalizing k with
  | nil => cases scans; exact ⟨rfl, .rfl⟩
  | cons e es ih =>
    rw [List.all_cons, Bool.and_eq_true] at inner
    obtain ⟨innerFirst, innerRest⟩ := inner
    rw [scanFrom] at scans
    split at scans
    case h_1 k1 first =>
      have one := scanEvent_inner innerFirst first
      have rest := ih innerRest scans
      exact ⟨rest.claimed.trans one.claimed, rest.scope.trans one.scope⟩
    case h_2 => cases scans

/-- Chip-select is asserted within a scope and deasserted outside. -/
theorem scanEvent_cs {c : Cfg} {k k' : Scan} {on : Bool} (scans : scanEvent c k (.cs on) = some k') :
    k'.claimed = k.claimed ∧ (k'.scope = .outside ↔ on = false) := by
  cases on with
  | true =>
    simp only [scanEvent, Option.ite_none_right_eq_some, Option.some.injEq] at scans
    obtain ⟨-, rfl⟩ := scans
    simp
  | false =>
    rw [scanEvent] at scans
    split at scans <;> cases scans <;> simp

/-- A ready sample only adds to what may follow: what is safe without one is safe after one. -/
theorem scanEvent_of_unpoised {c : Cfg} {k k' : Scan} {e : Event}
    (scans : scanEvent c { k with poised := false } e = some k') : scanEvent c k e = some k' := by
  obtain ⟨claimed, scope, _ | _⟩ := k
  · exact scans
  · cases e with
    | cs on => cases on <;> cases scope <;> simp_all [scanEvent]
    | tx b => cases scope <;> simp_all [scanEvent]
    | rx b => cases scope <;> simp_all [scanEvent]
    | _ => exact scans

/-! ### Sequences of primitives -/

/-- The primitives that do not touch the bus. -/
def Prim.isTest : Prim → Bool
  | .dpyTest _ | .raiseLate | .tmaCheck _ | .storeInfo | .endIfVcom _ => true
  | .gate | .cs _ | .tx _ | .txMasked _ | .rxDummy | .rxWord | .rst _ | .sleep _ | .claim | .release => false

/-- A test may stand between frames of an open session. -/
theorem safeFrom_test {c : Cfg} {k : Scan} {p : Prim} {ps : List Prim} (test : p.isTest = true) :
    safeFrom c k (p :: ps) = true ↔
      k.scope = .outside ∧ k.claimed = true ∧ safeFrom c { k with poised := false } ps = true := by
  cases p with
  | dpyTest | raiseLate | tmaCheck | storeInfo | endIfVcom =>
    simp [safeFrom, Prim.placed, Prim.events, scanFrom, and_assoc]
  | _ => cases test

/-- Any other primitive may stand where its events are safe. -/
theorem safeFrom_move {c : Cfg} {k : Scan} {p : Prim} {ps : List Prim} (move : p.isTest = false) :
    safeFrom c k (p :: ps) = true ↔
      p.placed k = true ∧ ∃ k', scanFrom c k (p.events c) = some k' ∧ safeFrom c k' ps = true := by
  have unfolded : safeFrom c k (p :: ps) = (p.placed k && match scanFrom c k (p.events c) with
      | some k' => safeFrom c k' ps
      | none => false) := by
    cases p with
    | dpyTest | raiseLate | tmaCheck | storeInfo | endIfVcom => cases move
    | _ => rfl
  rw [unfolded, Bool.and_eq_true]
  cases scanFrom c k (p.events c) <;> simp

theorem scanFrom_of_unpoised {c : Cfg} {k k' : Scan} {es : List Event} (nonempty : es ≠ [])
    (scans : scanFrom c { k with poised := false } es = some k') : scanFrom c k es = some k' := by
  obtain ⟨e, es, rfl⟩ := List.exists_cons_of_ne_nil nonempty
  rw [scanFrom] at scans ⊢
  split at scans
  case h_1 k1 first => rw [scanEvent_of_unpoised first]; exact scans
  case h_2 => cases scans

theorem Prim.events_ne_nil (c : Cfg) {p : Prim} (move : p.isTest = false) : p.events c ≠ [] := by
  cases p with
  | dpyTest | raiseLate | tmaCheck | storeInfo | endIfVcom => cases move
  | _ => simp [Prim.events, txEvents, rxEvents]

theorem safeFrom_of_unpoised {c : Cfg} {k : Scan} {ps : List Prim}
    (safe : safeFrom c { k with poised := false } ps = true) : safeFrom c k ps = true := by
  cases ps with
  | nil => exact safe
  | cons p ps =>
    cases kind : p.isTest with
    | true =>
      obtain ⟨outside, claimed, rest⟩ := (safeFrom_test kind).mp safe
      exact (safeFrom_test kind).mpr ⟨outside, claimed, rest⟩
    | false =>
      obtain ⟨placed, k', scans, rest⟩ := (safeFrom_move kind).mp safe
      have placed' : p.placed k = true := by cases p <;> exact placed
      exact (safeFrom_move kind).mpr ⟨placed', k', scanFrom_of_unpoised (p.events_ne_nil c kind) scans, rest⟩

/-! ### Frames and sequences of frames -/

/-- In the session and in the scope `sc`, no ready sample since the last other event. -/
def inSession (sc : Scope) : Scan := { claimed := true, scope := sc, poised := false }

/-- Out of the session. -/
def outOfSession : Scan := { claimed := false, scope := .outside, poised := false }

section
variable (c : Cfg) (qs : List Prim)

theorem safeFrom_gate {sc : Scope} (between : sc.between = true) :
    safeFrom c (inSession sc) (.gate :: qs) = safeFrom c { inSession sc with poised := true } qs := by
  simp [safeFrom, Prim.placed, Prim.events, readyEvent, scanFrom, scanEvent, inSession, between, lineReady]

/-- A frame opens with its preamble. -/
theorem safeFrom_opens {pre : Word} {sc : Scope} (preamble : scopeOf pre = some sc) :
    safeFrom c (inSession .outside) (.gate :: .cs true :: .tx pre :: qs) = safeFrom c (inSession sc) qs := by
  rw [safeFrom_gate c _ rfl]
  simp [safeFrom, Prim.placed, Prim.events, txEvents, scanFrom, scanEvent, inSession, ofBytes_wordBytes, preamble]

theorem safeFrom_commandWord (w : Word) :
    safeFrom c (inSession .cmdOpen) (.gate :: .tx w :: qs) = safeFrom c (inSession .cmdDone) qs := by
  rw [safeFrom_gate c _ rfl]
  rfl

theorem safeFrom_dataWord (w : Word) :
    safeFrom c (inSession .write) (.gate :: .tx w :: qs) = safeFrom c (inSession .write) qs := by
  rw [safeFrom_gate c _ rfl]
  rfl

theorem safeFrom_maskedWord (on : Bool) :
    safeFrom c (inSession .write) (.gate :: .txMasked on :: qs) = safeFrom c (inSession .write) qs := by
  rw [safeFrom_gate c _ rfl]
  rfl

theorem safeFrom_dummyWord :
    safeFrom c (inSession .read) (.gate :: .rxDummy :: qs) = safeFrom c (inSession .read) qs := by
  rw [safeFrom_gate c _ rfl]
  rfl

theorem safeFrom_receivedWord :
    safeFrom c (inSession .read) (.gate :: .rxWord :: qs) = safeFrom c (inSession .read) qs := by
  rw [safeFrom_gate c _ rfl]
  rfl

theorem safeFrom_payload (ws : List Word) :
    safeFrom c (inSession .write) (payloadSeq ws ++ qs) = safeFrom c (inSession .write) qs := by
  induction ws with
  | nil => rfl
  | cons w ws ih => exact (safeFrom_dataWord c _ w).trans ih

theorem safeFrom_receive (n : Nat) :
    safeFrom c (inSession .read) (receiveSeq n ++ qs) = safeFrom c (inSession .read) qs := by
  induction n with
  | zero => rfl
  | succ n ih => exact (safeFrom_receivedWord c _).trans ih

end

/-- The sequence `ps` leads safely from `k` to a place between frames of the session: what is safe from there on is safe
after it. -/
def Leads (c : Cfg) (k : Scan) (ps : List Prim) : Prop :=
  ∀ qs, safeFrom c (inSession .outside) qs = true → safeFrom c k (ps ++ qs) = true

/-- A sequence that leads from one place between frames to another. -/
abbrev Whole (c : Cfg) (ps : List Prim) : Prop := Leads c (inSession .outside) ps

theorem Leads.append {c : Cfg} {k : Scan} {ps qs : List Prim} (first : Leads c k ps) (second : Whole c qs) :
    Leads c k (ps ++ qs) := fun rs safe => by
  rw [List.append_assoc]
  exact first _ (second rs safe)

theorem Leads.safe {c : Cfg} {k : Scan} {ps : List Prim} (h : Leads c k ps) : safeFrom c k ps = true := by
  simpa using h [] rfl

section
variable (c : Cfg)

@[simp] theorem whole_nil : Whole c [] := fun _ safe => safe

/-- A gate of its own ends ready, which only allows more. -/
@[simp] theorem whole_gate : Whole c [.gate] := fun qs safe => by
  rw [List.singleton_append, safeFrom_gate c qs rfl]
  exact safeFrom_of_unpoised safe

theorem whole_test {p : Prim} (test : p.isTest = true) : Whole c [p] := fun _ safe =>
  (safeFrom_test test).mpr ⟨rfl, rfl, safe⟩

@[simp] theorem whole_sendCmd (code : Word) : Whole c (sendCmdSeq code) := fun qs safe => by
  simp only [sendCmdSeq, List.cons_append, List.nil_append]
  rwa [safeFrom_opens c _ (sc := .cmdOpen) (by decide), safeFrom_commandWord]

@[simp] theorem whole_sendBuf (ws : List Word) : Whole c (sendBufSeq ws) := fun qs safe => by
  simp only [sendBufSeq, List.append_assoc, List.cons_append, List.nil_append]
  rwa [safeFrom_opens c _ (sc := .write) (by decide), safeFrom_payload]

@[simp] theorem whole_sendData (v : Word) : Whole c (sendDataSeq v) := whole_sendBuf c [v]

@[simp] theorem whole_readBuf (n : Nat) : Whole c (readBufSeq n) := fun qs safe => by
  simp only [readBufSeq, List.append_assoc, List.cons_append, List.nil_append]
  rwa [safeFrom_opens c _ (sc := .read) (by decide), safeFrom_dummyWord, safeFrom_receive]

@[simp] theorem whole_readData : Whole c readDataSeq := whole_readBuf c 1

@[simp] theorem whole_args (code : Word) (ws : List Word) : Whole c (sendCmdArgsSeq code ws) :=
  (whole_sendCmd c code).append (whole_sendBuf c ws)

@[simp] theorem whole_readReg (a : Word) : Whole c (readRegSeq c a) :=
  ((whole_sendCmd c _).append (whole_sendData c a)).append (whole_readData c)

@[simp] theorem whole_writeReg (a v : Word) : Whole c (writeRegSeq c a v) :=
  ((whole_sendCmd c _).append (whole_sendData c a)).append (whole_sendData c v)

@[simp] theorem whole_writeMasked (a : Word) (on : Bool) : Whole c (writeMaskedSeq c a on) := by
  refine ((whole_sendCmd c _).append (whole_sendData c a)).append fun qs safe => ?_
  simp only [List.cons_append, List.nil_append]
  rwa [safeFrom_opens c _ (sc := .write) (by decide), safeFrom_maskedWord]

@[simp] theorem whole_waitDpy (defer : Bool) : Whole c (waitDpySeq c defer) :=
  (whole_readReg c _).append (whole_test c rfl)

@[simp] theorem whole_setTma (t : DWord) : Whole c (setTmaSeq c t) := by
  have check : Whole c [.tmaCheck t] := whole_test c rfl
  have rd := whole_readReg c
  have wr := whole_writeReg c
  unfold setTmaSeq
  split
  · exact ((((wr _ _).append (wr _ _)).append (rd _)).append (rd _)).append check
  · exact ((((wr _ _).append (wr _ _)).append (rd _)).append (rd _)).append check

@[simp] theorem whole_hostAreaWrite (info : LoadImageInfo) (a : AreaImageInfo) :
    Whole c (hostAreaWriteSeq c info a) :=
  (((whole_setTma c _).append (whole_args c _ _)).append (whole_sendBuf c _)).append (whole_sendCmd c _)

@[simp] theorem whole_display (x y w h m : Word) (t : Option DWord) :
    Whole c (displaySeq c x y w h m t) := by
  cases t <;> exact whole_args c _ _

@[simp] theorem whole_dpy1bpp (x y w h m : Word) (t : Option DWord) (bg fg : Byte) :
    Whole c (dpy1bppSeq c x y w h m t bg fg) := by
  have clear : Whole c (clear1bppSeq c) :=
    ((whole_readReg c _).append (whole_writeMasked c _ _)).append (whole_test c rfl)
  exact (((((whole_readReg c _).append (whole_writeMasked c _ _)).append (whole_writeReg c _ _)).append
    (whole_display c x y w h m t)).append (whole_waitDpy c true)).append clear

@[simp] theorem whole_reset : Whole c resetSeq := fun _ safe => safe

@[simp] theorem whole_getSysInfo : Whole c (getSysInfoSeq c) :=
  (whole_sendCmd c _).append (whole_readBuf c _)

@[simp] theorem whole_readVcom : Whole c (readVcomSeq c) :=
  ((whole_sendCmd c _).append (whole_sendData c _)).append (whole_readData c)

@[simp] theorem whole_writeVcom (v : Word) : Whole c (writeVcomSeq c v) :=
  ((whole_sendCmd c _).append (whole_sendData c _)).append (whole_sendData c v)

@[simp] theorem whole_initWait : Whole c (initWaitSeq c) := by
  unfold initWaitSeq
  split <;> simp

end

/-- `INITIALIZE` leads from the closed session into the open one. -/
theorem leads_initializeSeq (c : Cfg) (v : Word) : Leads c outOfSession (initializeSeq c v) := by
  have claims : Leads c outOfSession [.claim] := fun _ safe => safe
  have test : ∀ {p : Prim}, p.isTest = true → Whole c [p] := whole_test c
  exact (((((((((claims.append (whole_reset c)).append (whole_sendCmd c _)).append (whole_getSysInfo c)).append
    (test rfl)).append (whole_writeReg c _ _)).append (whole_initWait c)).append (whole_readVcom c)).append
    (test rfl)).append (whole_writeVcom c v))

/-- Where an operation begins: between frames, in the session unless the operation opens it. -/
def beginning (i : Instr) : Scan := { claimed := !opensSession i, scope := .outside, poised := false }

/-- The sequence of an ordinary instruction is made of whole ones. -/
theorem bodyOf_whole (s : State) {i : Instr} (h : ordinary i = true) : Whole s.cfg (bodyOf s i) := by
  cases i with
  | reset | initializeDevice | shutdown => cases h
  | multiFrame1bpp =>
    simp only [bodyOf]
    split <;> simp [multiFrameSeq, Leads.append]
  | clearRefresh =>
    simp only [bodyOf]
    split <;> simp [clearRefreshSeq, Leads.append]
  | enhanceDrv =>
    simp only [bodyOf, enhanceDrvSeq]
    split <;> simp [Leads.append]
  | _ =>
    simp [bodyOf, readReg32Seq, writeReg32Seq, ldImgStartSeq, ldImgAreaStartSeq, ldImgEndSeq, refresh1bppSeq,
      refreshSeq, Leads.append]

/-- The sequence of every instruction is safe from its beginning. -/
theorem bodyOf_safe (s : State) (i : Instr) : safeFrom s.cfg (beginning i) (bodyOf s i) = true := by
  cases i with
  | initializeDevice v => exact (leads_initializeSeq s.cfg v).safe
  | reset | shutdown => rfl
  | _ => exact (bodyOf_whole s rfl).safe

/-! ### The history of a running operation -/

/-- The history of `s` is safe and ends at `k`, and the session flag and the chip-select latch agree with that. -/
structure State.At (s : State) (k : Scan) : Prop where
  scans : scanAll s.cfg s.trace = some k
  session : k.claimed = s.isOpen
  latch : s.cs = .asserted ↔ k.scope ≠ .outside

/-- Where the history grows by safe events, the flag and the latch remain to be looked at. -/
theorem State.At.grow {s t : State} {k k' : Scan} {evs : List Event} (h : s.At k) (cfg : t.cfg = s.cfg)
    (grows : t.trace = s.trace ++ evs) (scans : scanFrom s.cfg k evs = some k') (session : k'.claimed = t.isOpen)
    (latch : t.cs = .asserted ↔ k'.scope ≠ .outside) : t.At k' := by
  refine ⟨?_, session, latch⟩
  have before := h.scans
  rw [scanAll] at before
  rw [cfg, grows, scanAll, scanFrom_append, before]
  exact scans

/-- Inner events move neither. -/
theorem State.At.growInner {s t : State} {k k' : Scan} {evs : List Event} (h : s.At k) (cfg : t.cfg = s.cfg)
    (grows : t.trace = s.trace ++ evs) (scans : scanFrom s.cfg k evs = some k') (inner : evs.all isInner = true)
    (session : t.isOpen = s.isOpen) (latch : t.cs = s.cs) : t.At k' := by
  obtain ⟨claimed, scope⟩ := scanFrom_inner inner scans
  refine h.grow cfg grows scans ?_ ?_
  · rw [claimed, session, h.session]
  · rw [latch, h.latch, Ne, Ne, scope]

/-- What leaves the history, the flag and the latch alone. -/
theorem State.At.same {s t : State} {k : Scan} (h : s.At k) (cfg : t.cfg = s.cfg) (trace : t.trace = s.trace)
    (session : t.isOpen = s.isOpen) (latch : t.cs = s.cs) : t.At k :=
  h.growInner (evs := []) cfg (by simpa using trace) rfl rfl session latch

/-- What a primitive leads to keeps the history safe, with `ps` still to be performed after it. -/
def Flow.Safe (ps : List Prim) : Flow → Prop
  | .go _ s => ∃ k, s.At k ∧ safeFrom s.cfg k ps = true
  | .hold again _ s =>
    ∃ k, s.At k ∧ k.claimed = true ∧ safeFrom s.cfg { k with poised := false } (again ++ ps) = true
  | .done _ s | .raise _ _ s => ∃ k, s.At k ∧ k.scope = .outside

/-- The back-off sleep of a failed poll lies between words, in the session. -/
theorem State.At.backOff {s : State} {k : Scan} (h : s.At k) (claimed : k.claimed = true)
    (between : k.scope.between = true) : ∃ b, s.backOff.At { k with poised := b } := by
  have slept := backOff_trace s
  cases e : s.cfg.pollSleep with
  | none =>
    refine ⟨k.poised, h.same (by simp) ?_ (by simp) (by simp)⟩
    simpa [e] using slept
  | some d =>
    refine ⟨false, h.growInner (evs := [.sleep d]) (by simp) ?_ ?_ rfl (by simp) (by simp)⟩
    · simpa [e] using slept
    · simp [scanFrom, scanEvent, claimed, between]

section
variable {s : State} {k : Scan} {ps : List Prim}

/-- A gate's poll: the sample lies between words, and a timeout ends the frame it stands in. -/
theorem pollGate_safe (j : Job) (h : s.At k) (safe : safeFrom s.cfg k (.gate :: ps) = true) :
    (pollGate j s).Safe ps := by
  obtain ⟨-, k', scans, rest⟩ := (safeFrom_move rfl).mp safe
  obtain ⟨⟨claimed, between⟩, rfl⟩ : (k.claimed = true ∧ k.scope.between = true) ∧ { k with poised := true } = k' := by
    simpa [Prim.events, readyEvent, scanFrom_singleton, scanEvent, lineReady] using scans
  have sampled : s.sample.2.At { k with poised := lineReady s.cfg s.sample.1 } := by
    refine h.growInner rfl (sample_trace s) ?_ rfl rfl rfl
    simp [scanFrom, scanEvent, claimed, between]
  obtain ⟨ready, e⟩ | ⟨notReady, -, e⟩ | ⟨notReady, -, e⟩ := pollGate_cases j s <;> rw [e]
  · rw [ready] at sampled
    exact ⟨_, sampled, rest⟩
  · simp only [Flow.Safe]
    split
    case isTrue asserted =>
      refine ⟨{ k with scope := .outside, poised := false },
        sampled.grow (evs := [.cs false]) rfl (setCs_trace _ _) ?_ sampled.session (by simp), rfl⟩
      have inFrame := sampled.latch.mp asserted
      cases scope : k.scope <;> simp_all [scanFrom, scanEvent, Scope.between]
    case isFalse released => exact ⟨_, sampled, not_not.mp fun inFrame => released (sampled.latch.mpr inFrame)⟩
  · obtain ⟨b, slept⟩ := sampled.backOff claimed between
    refine ⟨_, slept, claimed, (safeFrom_move rfl).mpr ⟨rfl, { k with poised := true }, ?_, ?_⟩⟩
    · rw [backOff_cfg]
      exact scans
    · rw [backOff_cfg]
      exact rest

/-- The display wait's test, outside a frame; another poll of it is a whole register read. -/
theorem pollDisplay_safe (defer : Bool) (j : Job) (h : s.At k) (safe : safeFrom s.cfg k (.dpyTest defer :: ps) = true) :
    (pollDisplay defer j s).Safe ps := by
  obtain ⟨outside, claimed, rest⟩ := (safeFrom_test rfl).mp safe
  obtain ⟨-, e⟩ | ⟨-, -, -, e⟩ | ⟨-, -, -, e⟩ | ⟨-, -, e⟩ := pollDisplay_cases defer j s <;> rw [e]
  · exact ⟨k, h, safeFrom_of_unpoised rest⟩
  · exact ⟨k, h, safeFrom_of_unpoised rest⟩
  · exact ⟨k, h, outside⟩
  · obtain ⟨b, slept⟩ := h.backOff claimed (by rw [outside]; rfl)
    refine ⟨_, slept, claimed, ?_⟩
    have here : { k with poised := false } = inSession .outside := by simp [inSession, ← outside, ← claimed]
    rw [backOff_cfg]
    simp only [here] at rest ⊢
    exact whole_waitDpy _ _ ps rest

theorem checkTma_safe (t : DWord) (j : Job) (h : s.At k) (safe : safeFrom s.cfg k (.tmaCheck t :: ps) = true) :
    (checkTma t j s).Safe ps := by
  obtain ⟨outside, -, rest⟩ := (safeFrom_test rfl).mp safe
  obtain ⟨r, d, -, -, ⟨e, -⟩ | ⟨e, -⟩⟩ := checkTma_cases t j s <;> rw [e]
  · exact ⟨k, h.same rfl rfl rfl rfl, safeFrom_of_unpoised rest⟩
  · exact ⟨k, h.same rfl rfl rfl rfl, outside⟩

theorem claimTransport_safe (j : Job) (h : s.At k) (safe : safeFrom s.cfg k (.claim :: ps) = true) :
    (claimTransport j s).Safe ps := by
  obtain ⟨-, k', scans, rest⟩ := (safeFrom_move rfl).mp safe
  obtain ⟨⟨closed, outside⟩, rfl⟩ : (k.claimed = false ∧ k.scope = .outside) ∧
      { claimed := true, scope := .outside, poised := false } = k' := by
    simpa [Prim.events, scanFrom_singleton, scanEvent] using scans
  have asked : scanFrom s.cfg k [.opened s.askOpen.1] =
      some { claimed := s.askOpen.1, scope := .outside, poised := false } := by
    simp [scanFrom, scanEvent, closed, outside]
  obtain ⟨granted, e⟩ | ⟨denied, e⟩ := claimTransport_cases j s <;> rw [e]
  · refine ⟨_, h.grow rfl (askOpen_trace s) asked granted (by simp), ?_⟩
    rw [granted]
    exact rest
  · refine ⟨_, h.grow rfl (askOpen_trace s) asked ?_ ?_, rfl⟩
    · exact denied.trans (closed.symm.trans h.session)
    · exact h.latch.trans (by simp [outside])

/-- Each primitive, where it may stand, keeps the history safe. -/
theorem perform_safe {p : Prim} (j : Job) (h : s.At k) (safe : safeFrom s.cfg k (p :: ps) = true) :
    (perform p j s).Safe ps := by
  cases p with
  | gate => exact pollGate_safe j h safe
  | dpyTest defer => exact pollDisplay_safe defer j h safe
  | tmaCheck t => exact checkTma_safe t j h safe
  | claim => exact claimTransport_safe j h safe
  | raiseLate | endIfVcom v =>
    obtain ⟨outside, -, rest⟩ := (safeFrom_test rfl).mp safe
    simp only [perform]
    split
    · exact ⟨k, h, outside⟩
    · exact ⟨k, h, safeFrom_of_unpoised rest⟩
  | storeInfo =>
    obtain ⟨-, -, rest⟩ := (safeFrom_test rfl).mp safe
    refine ⟨k, h.same (by simp) (by simp) (by simp) (by simp), ?_⟩
    rw [storeDeviceInfo_cfg]
    exact safeFrom_of_unpoised rest
  | cs on =>
    obtain ⟨-, k', scans, rest⟩ := (safeFrom_move rfl).mp safe
    obtain ⟨claimed, moved⟩ := scanEvent_cs ((scanFrom_singleton _ _ _).symm.trans scans)
    refine ⟨k', h.grow rfl (setCs_trace s on) scans (claimed.trans h.session) ?_, rest⟩
    rw [Ne, moved]
    cases on <;> simp
  | release =>
    obtain ⟨-, k', scans, rest⟩ := (safeFrom_move rfl).mp safe
    obtain ⟨-, rfl⟩ : (k.claimed = true ∧ k.scope = .outside) ∧
        { claimed := false, scope := .outside, poised := false } = k' := by
      simpa [Prim.events, scanFrom_singleton, scanEvent] using scans
    exact ⟨_, h.grow rfl (releaseTransport_trace s) scans rfl (by simp), rest⟩
  | txMasked on =>
    obtain ⟨placed, k', scans, rest⟩ := (safeFrom_move rfl).mp safe
    refine ⟨k', h.growInner rfl (txWord_trace s _) ?_ rfl rfl rfl, rest⟩
    obtain ⟨claimed, scope, poised⟩ := k
    obtain rfl : scope = .write := of_decide_eq_true placed
    cases poised <;> exact scans
  | tx w =>
    obtain ⟨-, k', scans, rest⟩ := (safeFrom_move rfl).mp safe
    exact ⟨k', h.growInner rfl (txWord_trace s w) scans rfl rfl rfl, rest⟩
  | rxDummy | rxWord =>
    obtain ⟨-, k', scans, rest⟩ := (safeFrom_move rfl).mp safe
    exact ⟨k', h.growInner rfl (rxWord_trace s) scans rfl rfl rfl, rest⟩
  | rst l =>
    obtain ⟨-, k', scans, rest⟩ := (safeFrom_move rfl).mp safe
    exact ⟨k', h.growInner rfl (setRst_trace s l) scans rfl rfl rfl, rest⟩
  | sleep d =>
    obtain ⟨-, k', scans, rest⟩ := (safeFrom_move rfl).mp safe
    exact ⟨k', h.growInner rfl (emit_trace s _) scans rfl rfl rfl, rest⟩

end

/-! ### Runs and steps -/

/-- An idle state outside a frame is safe. -/
theorem State.At.safeIdle {s : State} {k : Scan} (h : s.At k) (outside : k.scope = .outside) (idle : s.seq = .idle) :
    s.SafeHistory :=
  ⟨k, h.scans, h.session, h.latch, fun _ => outside, fun _ running => by rw [idle] at running; cases running⟩

/-- A fault taken outside a frame: in `INITIALIZE` the transport is closed, which it may be there. -/
theorem raiseFault_safe {s : State} {k : Scan} (f : Fault) (j : Job) (h : s.At k) (outside : k.scope = .outside) :
    (raiseFault f j s).SafeHistory := by
  obtain ⟨sameSession, sameTrace, -⟩ | ⟨closed, grows, -, -, wasOpen⟩ := raiseFault_session f j s
  · exact (h.same (by simp) sameTrace sameSession (by simp)).safeIdle outside rfl
  · refine State.At.safeIdle (k := outOfSession) (h.grow (by simp) grows ?_ closed.symm ?_) rfl rfl
    · simp [scanFrom, scanEvent, outside, h.session, wasOpen, outOfSession]
    · rw [raiseFault_cs, h.latch]
      simp [outside, outOfSession]

/-- A run of a sequence that is safe where the history stands keeps it safe. -/
theorem runPrims_safe {s : State} {k : Scan} (ps : List Prim) (j : Job) (h : s.At k)
    (safe : safeFrom s.cfg k ps = true) : (runPrims ps j s).SafeHistory := by
  induction ps generalizing j s k with
  | nil => exact State.At.safeIdle (h.same rfl rfl rfl rfl) (of_decide_eq_true safe) rfl
  | cons p ps ih =>
    have performed := perform_safe j h safe
    rw [runPrims_cons]
    generalize perform p j s = flow at performed
    cases flow with
    | go j' s' =>
      obtain ⟨k', h', rest⟩ := performed
      exact ih j' h' rest
    | hold again j' s' =>
      obtain ⟨k', h', claimed, rest⟩ := performed
      refine ⟨k', h'.scans, h'.session, h'.latch, nofun, fun j'' running => ?_⟩
      cases running
      exact ⟨claimed, rest⟩
    | done j' s' =>
      obtain ⟨k', h', outside⟩ := performed
      exact State.At.safeIdle (h'.same rfl rfl rfl rfl) outside rfl
    | raise f j' s' =>
      obtain ⟨k', h', outside⟩ := performed
      exact raiseFault_safe f j' h' outside

/-- Executing an instruction keeps the history of an idle block safe: its sequence is safe from its beginning. -/
theorem exec_safe {i : Instr} {s t : State} {k : Scan} (h : s.At k) (outside : k.scope = .outside)
    (idle : s.seq = .idle) (answers : exec i s = .next t) : t.SafeHistory := by
  obtain ⟨r, e⟩ | ⟨w, b, -, -, e⟩ | ⟨-, session, e⟩ := exec_cases i s <;> cases e.symm.trans answers
  · exact State.At.safeIdle (h.same rfl rfl rfl rfl) outside idle
  · exact State.At.safeIdle (h.same rfl rfl rfl rfl) outside idle
  · have begins : beginning i = { k with poised := false } := by
      simp [beginning, ← session, ← h.session, ← outside]
    have body := bodyOf_safe s i
    rw [begins] at body
    exact runPrims_safe _ _ (h.same rfl rfl rfl rfl) (safeFrom_of_unpoised body)

/-- Settles O13: a running operation goes on with what its history allows (`runPrims_safe`), and an idle block executes
a sequence that is safe from its beginning (`exec_safe`) or leaves the history as it is. -/
theorem stepKeepsHistorySafe : Obligations.StepKeepsHistorySafe := by
  rintro s t ⟨k, scans, session, latch, whenIdle, whenRunning⟩ answers
  have h : s.At k := ⟨scans, session, latch⟩
  obtain ⟨idle, rfl⟩ | ⟨rest, idle, rfl⟩ | ⟨rest, i, idle, e⟩ | ⟨j, running, rfl⟩ := step_cases answers
  · exact h.safeIdle (whenIdle idle) idle
  · exact State.At.safeIdle (h.same rfl rfl rfl rfl) (whenIdle idle) idle
  · exact exec_safe (s := { s with port := rest }) (h.same rfl rfl rfl rfl) (whenIdle idle) idle e
  · obtain ⟨-, safe⟩ := whenRunning j running
    exact runPrims_safe _ _ (h.same rfl rfl rfl rfl) (safeFrom_of_unpoised safe)

/-- Settles O12: the history is empty, the session closed, the sequencer idle and the environment a tape. -/
theorem resetMeetsInvariants : Obligations.ResetMeetsInvariants := by
  have empty : State.reset.At outOfSession := ⟨rfl, rfl, by decide⟩
  exact ⟨empty.safeIdle rfl rfl, rfl, rfl, nofun⟩

end Sys2Proof.Machine
end

section
/-!
PROOFS. The framing layer (40_framing R120 to R127): complete frames, the gate's polls and its timeout.
-/

namespace Sys2Proof.Machine

open Sys2Proof

/-! ### Complete frames (R122 to R127) -/

/-- Settles O25: each is the request of one or two frames, which a script of as many gates answers. -/
theorem writeFramesComplete : Obligations.WriteFramesComplete := by
  intro s e code v ws ready
  refine ⟨fun answers => ?_, fun answers => ?_, fun answers full => ?_, fun answers full => ?_⟩
  · exact openRequest_scripted ready rfl answers (script_sendCmd rfl code)
  · exact openRequest_scripted ready rfl answers (script_sendData rfl v)
  · exact openRequest_scripted ready (emptyCheck_full full) (by simpa using answers) (script_sendBuf (n := 0) rfl ws)
  · exact openRequest_scripted ready (emptyCheck_full full) (by simpa using answers)
      (script_args (n := 0) rfl code ws)

/-- Settles O26: a read frame takes the dummy word of the script off the wire (`script_rxDummy`) and keeps the
others. -/
theorem readFramesComplete : Obligations.ReadFramesComplete := by
  intro s e d v ws ready
  refine ⟨fun answers => ?_, fun answers full => ?_⟩
  · exact openRequest_scripted ready rfl answers (script_readData rfl d v)
  · exact openRequest_scripted ready (emptyCheck_full full) (by simpa using answers)
      (script_readBuf (n := 0) (ws := []) rfl d ws)

/-! ### The gate (R120) -/

/-- A step of an operation that waits at a gate polls it again. -/
theorem step_atGate {s : State} {j : Job} {rest : List Prim} (running : s.seq = .running j)
    (todo : j.todo = .gate :: rest) : step s = .next (runPrims (.gate :: rest) j { s with seq := .idle }) := by
  rw [← todo]
  exact step_running running

/-- A job of which a gate is all that is left polls it until its first ready sample, one step for each failed poll. -/
theorem gate_goesOn (n : Nat) {s : State} {j : Job} {l r : Level} {e : Tape} (idle : s.seq = .idle)
    (notReady : l ≠ s.cfg.readyLevel) (ready : r = s.cfg.readyLevel)
    (below : ∀ b : ℕ+, s.cfg.pollBound = some b → j.gatePolls + n < (b : Nat))
    (answers : s.env = .tape { e with rdy := List.replicate n l ++ r :: e.rdy }) :
    goesOnTo n (runPrims [.gate] j s) { s with
      trace := s.trace ++ (List.replicate n (failedPoll s.cfg l)).flatten ++ [.rdy r]
      env := .tape e
      resp := some (.ok (j.ret.value j.got)) } := by
  induction n generalizing s j with
  | zero =>
    rw [tape_gate_ready ready answers]
    simp [goesOnTo, finish, idle]
  | succ n ih =>
    have failed := tape_gate_failed (ps := []) (j := j) (e := { e with rdy := List.replicate n l ++ r :: e.rdy })
      notReady (fun b bound => by have := below b bound; omega) answers
    rw [failed]
    refine ⟨nofun, _, step_atGate rfl rfl, ?_⟩
    have goes := ih (s := { s with trace := s.trace ++ failedPoll s.cfg l,
                                   env := .tape { e with rdy := List.replicate n l ++ r :: e.rdy } })
      (j := { j with gatePolls := j.gatePolls + 1, todo := [.gate] }) idle notReady ready
      (fun b bound => by have := below b bound; simp only; omega) rfl
    simpa [List.replicate_succ, idle] using goes

/-- Settles O24: `GATE` is a gate that ends at its first ready sample, at its first poll (`tape_gate_ready`) or after
failed ones (`gate_goesOn`), and a waiting operation polls its gate again (`step_atGate`). -/
theorem gateCompletes : Obligations.GateCompletes := by
  refine ⟨fun s l e accepts ready answers => ?_, fun n s l r e accepts notReady ready below answers => ?_,
    fun s j rest l e running todo ready answers => ?_⟩
  · refine (openRequest_runs accepts rfl _).trans (congrArg Host.Outcome.next ?_)
    refine (tape_gate_ready (ps := []) (s := { s with resp := none }) ready answers).trans ?_
    simp [finish, Ret.value, Job.start, accepts.idle]
  · exact ⟨n, _, openRequest_runs accepts rfl _, gate_goesOn n (s := { s with resp := none }) accepts.idle notReady
      ready (by simpa [Job.start] using below) answers, accepts.idle, rfl⟩
  · exact (step_atGate running todo).trans
      (congrArg Host.Outcome.next (tape_gate_ready (s := { s with seq := .idle }) ready answers))

theorem boundHit_reached {c : Cfg} {b : ℕ+} {k : Nat} (bound : c.pollBound = some b) (reached : (b : Nat) ≤ k) :
    boundHit c k = true := by
  simp [boundHit, bound, reached]

/-- A gate whose bound is hit ends the operation. -/
theorem tape_gate_timeout {s : State} {j : Job} {rest : List Prim} {b : ℕ+} {l : Level} {e : Tape}
    (bound : s.cfg.pollBound = some b) (reached : (b : Nat) ≤ j.gatePolls + 1) (notReady : l ≠ s.cfg.readyLevel)
    (answers : s.env = .tape { e with rdy := l :: e.rdy }) :
    runPrims (.gate :: rest) j s = s.faulted j e (if s.cs = .asserted then .deasserted else s.cs)
      (.rdy l :: (if s.cs = .asserted then [.cs false] else [])) (.waitTimeout .gate) := by
  have failed : lineReady s.cfg l = false := by simp [lineReady, notReady]
  simp only [runPrims_cons, perform, pollGate, State.sample, answers, Env.level, failed, boundHit_reached bound reached]
  by_cases asserted : s.cs = .asserted <;> cases closes : j.closeOnFault && s.isOpen <;>
    simp [State.faulted, raiseFault, asserted, closes, State.setCs, State.emit, Env.observe, State.closeAfterFault]

/-! ### With a bound of one poll, a sample that is not ready is the end -/

/-- How often the history shows the ready line at the level `l`. -/
def State.samples (s : State) (l : Level) : Nat := s.trace.count (.rdy l)

@[simp] theorem backOff_samples (s : State) (l : Level) : s.backOff.samples l = s.samples l := by
  unfold State.backOff State.samples
  split <;> simp

/-- No primitive but the gate samples. -/
theorem perform_samples {p : Prim} (j : Job) (s : State) (l : Level) (notGate : p ≠ .gate) :
    (perform p j s).state.samples l = s.samples l := by
  cases p with
  | gate => exact absurd rfl notGate
  | dpyTest defer =>
    obtain ⟨-, e⟩ | ⟨-, -, -, e⟩ | ⟨-, -, -, e⟩ | ⟨-, -, e⟩ := pollDisplay_cases defer j s <;> rw [perform, e]
    case inr.inr.inr => exact backOff_samples s l
    all_goals rfl
  | tmaCheck t =>
    obtain ⟨r, d, -, -, ⟨e, -⟩ | ⟨e, -⟩⟩ := checkTma_cases t j s <;> simp [perform, e, Flow.state, State.samples]
  | claim =>
    obtain ⟨-, e⟩ | ⟨-, e⟩ := claimTransport_cases j s <;> simp [perform, e, Flow.state, State.samples]
  | raiseLate | endIfVcom v => simp only [perform]; split <;> rfl
  | _ => simp [perform, Flow.state, State.samples]

/-- The operation that began in `s` ended at a gate that sampled `l`, with the timeout; it released chip-select and, if
`closes`, the transport. -/
structure State.TimedOut (closes : Bool) (l : Level) (s t : State) : Prop where
  idle : t.seq = .idle
  latch : t.cs ≠ .asserted
  session : t.isOpen = !closes
  result : t.resp = some (.fault (.waitTimeout .gate))
  history : ∃ mid, ∃ off ∈ [[], [Event.cs false]],
    t.trace = s.trace ++ mid ++ .rdy l :: off ++ (if closes then [.closed] else [])

theorem State.TimedOut.since {closes : Bool} {l : Level} {s s' t : State} (h : s'.TimedOut closes l t)
    (earlier : s.trace <+: s'.trace) : s.TimedOut closes l t := by
  obtain ⟨idle, latch, session, result, mid, off, isOff, grows⟩ := h
  obtain ⟨before, begins⟩ := earlier
  exact ⟨idle, latch, session, result, before ++ mid, off, isOff, by rw [grows, ← begins]; simp⟩

theorem raiseFault_samples (f : Fault) (j : Job) (s : State) (l : Level) :
    (raiseFault f j s).samples l = s.samples l := by
  obtain ⟨-, same, -⟩ | ⟨-, grows, -⟩ := raiseFault_session f j s <;> simp [State.samples, *]

/-- A run that samples `l` after a primitive that is no gate has gone on from it. -/
theorem runPrims_sampledLater {p : Prim} {ps : List Prim} {j : Job} {s : State} {l : Level} (notGate : p ≠ .gate)
    (seen : s.samples l < (runPrims (p :: ps) j s).samples l) :
    ∃ j' s', perform p j s = .go j' s' ∧ runPrims (p :: ps) j s = runPrims ps j' s' ∧
      s'.samples l < (runPrims ps j' s').samples l := by
  have unseen := perform_samples j s l notGate
  rw [runPrims_cons] at seen ⊢
  generalize perform p j s = flow at seen unseen
  cases flow with
  | go j' s' => exact ⟨j', s', rfl, rfl, by rwa [show s'.samples l = s.samples l from unseen]⟩
  | hold again j' s' => exact absurd seen (not_lt.mpr (le_of_eq unseen))
  | done j' s' => exact absurd seen (not_lt.mpr (le_of_eq unseen))
  | raise f j' s' => exact absurd seen (not_lt.mpr (le_of_eq ((raiseFault_samples f j' s' l).trans unseen)))

/-- The gate's timeout, taken with chip-select released. -/
theorem raiseFault_timedOut {s t : State} (j : Job) {l : Level} {off : List Event}
    (isOff : off ∈ [[], [Event.cs false]]) (grows : t.trace = s.trace ++ .rdy l :: off) (latch : t.cs ≠ .asserted)
    (session : t.isOpen = true) :
    s.TimedOut j.closeOnFault l (raiseFault (.waitTimeout .gate) j t) := by
  have released : (raiseFault (.waitTimeout .gate) j t).cs ≠ .asserted := by simpa using latch
  obtain ⟨sameSession, sameTrace, -, stays⟩ | ⟨closed, closing, -, closes, -⟩ :=
    raiseFault_session (.waitTimeout .gate) j t
  · have stays : j.closeOnFault = false := by simpa [session] using stays
    exact ⟨rfl, released, by simp [sameSession, session, stays], rfl, [], off, isOff,
      by simp [sameTrace, grows, stays]⟩
  · exact ⟨rfl, released, by simp [closed, closes], rfl, [], off, isOff, by simp [closing, grows, closes]⟩

/-- There is one level that is not ready. -/
theorem eq_of_ne_ready {a b ready : Level} (ha : a ≠ ready) (hb : b ≠ ready) : a = b := by
  cases ready <;> cases a <;> cases b <;> simp_all

/-- The gate under a bound of one poll: ready, or the end of the operation. -/
theorem pollGate_boundOne (j : Job) {s : State} {l : Level} (bound : s.cfg.pollBound = some 1)
    (notReady : l ≠ s.cfg.readyLevel) (session : s.isOpen = true) :
    (pollGate j s = .go { j with gatePolls := 0 } s.sample.2 ∧ s.sample.2.samples l = s.samples l) ∨
    (∃ t, pollGate j s = .raise (.waitTimeout .gate) j t ∧
      s.TimedOut j.closeOnFault l (raiseFault (.waitTimeout .gate) j t)) := by
  have hit : boundHit s.cfg (j.gatePolls + 1) = true := boundHit_reached bound (by simp)
  obtain ⟨ready, e⟩ | ⟨failed, -, e⟩ | ⟨-, below, -⟩ := pollGate_cases j s
  · have isReady : s.sample.1 = s.cfg.readyLevel := by simpa [lineReady] using ready
    exact .inl ⟨e, by simp [State.samples, isReady, notReady.symm]⟩
  · have isL : s.sample.1 = l := eq_of_ne_ready (by simpa [lineReady] using failed) notReady
    refine .inr ⟨_, e, ?_⟩
    split
    case isTrue => exact raiseFault_timedOut j (off := [.cs false]) (by simp) (by simp [isL]) (by simp) session
    case isFalse released => exact raiseFault_timedOut j (off := []) (by simp) (by simp [isL]) released session
  · rw [hit] at below
    cases below

/-- The primitives that neither claim nor release the transport. -/
def Prim.keepsTransport : Prim → Bool
  | .claim | .release => false
  | _ => true

/-- A run in the session that samples a line not ready has so timed out. -/
theorem runPrims_unready (ps : List Prim) {j : Job} {s : State} {l : Level} (bound : s.cfg.pollBound = some 1)
    (notReady : l ≠ s.cfg.readyLevel) (session : s.isOpen = true) (keeps : ps.all Prim.keepsTransport = true)
    (seen : s.samples l < (runPrims ps j s).samples l) : s.TimedOut j.closeOnFault l (runPrims ps j s) := by
  induction ps generalizing j s with
  | nil => exact absurd seen (lt_irrefl _)
  | cons p ps ih =>
    rw [List.all_cons, Bool.and_eq_true] at keeps
    obtain ⟨first, rest⟩ := keeps
    by_cases gate : p = .gate
    · subst gate
      obtain ⟨e, unseen⟩ | ⟨t, e, timedOut⟩ := pollGate_boundOne j bound notReady session
      · have goes := runPrims_go (p := .gate) (ps := ps) e
        rw [goes] at seen ⊢
        rw [← unseen] at seen
        exact (ih (j := { j with gatePolls := 0 }) (s := s.sample.2) bound notReady session rest seen).since
          ⟨_, (sample_trace s).symm⟩
      · rw [runPrims_cons, perform, e]
        exact timedOut
    · obtain ⟨j', s', e, goes, later⟩ := runPrims_sampledLater gate seen
      obtain ⟨-, closes, sameSession, -⟩ :=
        perform_inside p j s (by rintro rfl; cases first) (by rintro rfl; cases first)
      obtain ⟨cfg, -, grows⟩ := perform_keeps p j s
      rw [e] at closes sameSession cfg grows
      simp only [Flow.job, Flow.state] at closes sameSession cfg grows
      rw [goes, ← closes]
      exact (ih (by rwa [cfg]) (by rwa [cfg]) (sameSession.trans session) rest later).since grows

theorem keepsTransport_of_mayFollow {op : Instr} {ps : List Prim} (follow : ps.all (Prim.mayFollowWait op) = true) :
    ps.all Prim.keepsTransport = true := by
  rw [List.all_eq_true] at follow ⊢
  intro p isIn
  have follows := follow p isIn
  cases p with
  | claim | release => cases follows
  | _ => rfl

@[simp] theorem initWaitSeq_mayFollow (op : Instr) (c : Cfg) :
    (initWaitSeq c).all (Prim.mayFollowWait op) = true := by
  unfold initWaitSeq
  split
  · rfl
  · exact waitDpySeq_mayFollow op c false

/-- After its open and its reset, `INITIALIZE` is made of what may follow a wait. -/
theorem initializeSeq_mayFollow (c : Cfg) (v : Word) :
    ((initializeSeq c v).drop 7).all (Prim.mayFollowWait (.initializeDevice v)) = true := by
  simp [initializeSeq, resetSeq, getSysInfoSeq, readVcomSeq, writeVcomSeq, Prim.mayFollowWait, opensSession]

/-- `INITIALIZE` stays in the session it opens. -/
theorem initializeSeq_keepsTransport (c : Cfg) (v : Word) :
    (initializeSeq c v).tail.all Prim.keepsTransport = true := by
  show (resetSeq ++ (initializeSeq c v).drop 7).all Prim.keepsTransport = true
  rw [List.all_append, keepsTransport_of_mayFollow (initializeSeq_mayFollow c v)]
  rfl

/-- A run that claims the transport first and then stays in the session. -/
theorem runPrims_claim_unready {ps : List Prim} {j : Job} {s : State} {l : Level} (bound : s.cfg.pollBound = some 1)
    (notReady : l ≠ s.cfg.readyLevel) (keeps : ps.all Prim.keepsTransport = true)
    (seen : s.samples l < (runPrims (.claim :: ps) j s).samples l) :
    s.TimedOut j.closeOnFault l (runPrims (.claim :: ps) j s) := by
  obtain ⟨j', s', flow, goes, later⟩ := runPrims_sampledLater (p := .claim) nofun seen
  obtain ⟨-, e⟩ | ⟨-, e⟩ := claimTransport_cases j s <;> cases e.symm.trans flow
  rw [goes]
  have timedOut := runPrims_unready ps (s := { s.askOpen.2 with isOpen := true, cs := .deasserted, rst := .undriven })
    bound notReady rfl keeps later
  exact timedOut.since ⟨_, (askOpen_trace s).symm⟩

/-- With a bound of one poll, an instruction that saw the line not ready has timed out at that gate. -/
theorem exec_unready {i : Instr} {s t : State} {l : Level} (bound : s.cfg.pollBound = some 1)
    (answers : exec i s = .next t) (notReady : l ≠ s.cfg.readyLevel) (seen : s.samples l < t.samples l) :
    s.TimedOut (opensSession i) l t := by
  obtain ⟨r, e⟩ | ⟨w, b, -, -, e⟩ | ⟨-, session, e⟩ := exec_cases i s <;> cases e.symm.trans answers
  · exact absurd seen (lt_irrefl _)
  · exact absurd seen (lt_irrefl _)
  · have within : s.isOpen = true → (bodyOf s i).all Prim.keepsTransport = true →
        s.TimedOut (opensSession i) l (runPrims (bodyOf s i) (jobOf s i) { s with resp := none }) := fun isOpen keeps =>
      (runPrims_unready _ (s := { s with resp := none }) bound notReady isOpen keeps seen).since List.prefix_rfl
    cases i with
    | initializeDevice v =>
      exact (runPrims_claim_unready (s := { s with resp := none }) bound notReady (initializeSeq_keepsTransport s.cfg v)
        seen).since List.prefix_rfl
    | shutdown =>
      obtain ⟨j', s', -, -, later⟩ := runPrims_sampledLater (p := .release) (ps := []) nofun seen
      exact absurd later (lt_irrefl _)
    | reset => exact within session rfl
    | _ => exact within session (keepsTransport_of_mayFollow (bodyOf_mayFollow s _ rfl))

theorem exec_history {i : Instr} {s t : State} (answers : exec i s = .next t) : s.trace <+: t.trace := by
  obtain ⟨r, e⟩ | ⟨w, b, -, -, e⟩ | ⟨-, -, e⟩ := exec_cases i s <;> cases e.symm.trans answers
  · exact List.prefix_rfl
  · exact List.prefix_rfl
  · obtain ⟨-, -, grows⟩ := runPrims_frame (bodyOf s i) (jobOf s i) { s with resp := none }
    exact grows

theorem samples_lt_of_mem_drop {s t : State} {l : Level} (grows : s.trace <+: t.trace)
    (sampled : .rdy l ∈ t.trace.drop s.trace.length) : s.samples l < t.samples l := by
  obtain ⟨evs, history⟩ := grows
  rw [← history, List.drop_left] at sampled
  have more := List.count_pos_iff.mpr sampled
  rw [State.samples, State.samples, ← history, List.count_append]
  omega

/-- Settles O28: a gate whose bound is hit raises the timeout (`tape_gate_timeout`), in a run and in a step that polls
it again (`step_atGate`); with a bound of one poll every sample that is not ready is such an end (`exec_unready`). -/
theorem gateTimeoutEndsOperation : Obligations.GateTimeoutEndsOperation := by
  refine ⟨fun s j rest b l e bound reached notReady answers => ⟨?_, fun running todo => ?_⟩,
    fun i s t l bound answers notReady sampled => ?_⟩
  · exact tape_gate_timeout bound reached notReady answers
  · exact (step_atGate running todo).trans
      (congrArg Host.Outcome.next (tape_gate_timeout (s := { s with seq := .idle }) bound reached notReady answers))
  · obtain ⟨idle, latch, session, result, history⟩ :=
      exec_unready bound answers notReady (samples_lt_of_mem_drop (exec_history answers) sampled)
    exact ⟨idle, latch, session, result, history⟩

end Sys2Proof.Machine
end

section
/-!
PROOFS. Register access (41 R140 to R145): the four operations against a script, and a write followed by a read.
-/

namespace Sys2Proof.Machine

open Sys2Proof

/-! ### Complete operations (R140 to R143) -/

section

variable {ps : List Prim} {j : Job} {s : State} {n : Nat} {ws : List Word} {e : Tape} {cs : CsLatch} {evs : List Event}

theorem script_readReg32 (fresh : j.gatePolls = 0) (a d1 r1 d2 r2 : Word) :
    runPrims (readReg32Seq s.cfg a ++ ps) j (s.put (Env.script s.cfg (n + 14) (d1 :: r1 :: d2 :: r2 :: ws) e) cs evs)
      = runPrims ps ((j.take r1).take r2) (s.put (Env.script s.cfg n ws e) .deasserted
          (evs ++ (readRegEvents s.cfg a d1 r1 ++ readRegEvents s.cfg (pairHigh a) d2 r2))) := by
  rw [readReg32Seq, List.append_assoc, script_readReg (n := n + 7) fresh, script_readReg (j := j.take r1) fresh,
    List.append_assoc]

theorem script_writeReg32 (fresh : j.gatePolls = 0) (a : Word) (v : DWord) :
    runPrims (writeReg32Seq s.cfg a v ++ ps) j (s.put (Env.script s.cfg (n + 12) ws e) cs evs)
      = runPrims ps j (s.put (Env.script s.cfg n ws e) .deasserted
          (evs ++ (writeRegEvents s.cfg a (lo16 v) ++ writeRegEvents s.cfg (pairHigh a) (hi16 v)))) := by
  rw [writeReg32Seq, List.append_assoc, script_writeReg (n := n + 6) fresh, script_writeReg fresh, List.append_assoc]

end

/-- `READ_REG` against a script. -/
theorem exec_readReg_scripted {s : State} (ready : s.Accepts) {a d r : Word} {e : Tape}
    (answers : s.env = Env.script s.cfg 7 [d, r] e) :
    exec (.readReg a) s = .next (s.ended e (readRegEvents s.cfg a d r) (.word r)) :=
  openRequest_scripted ready rfl answers (script_readReg rfl a d r)

/-- `WRITE_REG` against a script. -/
theorem exec_writeReg_scripted {s : State} (ready : s.Accepts) {a v : Word} {e : Tape}
    (answers : s.env = Env.script s.cfg 6 [] e) :
    exec (.writeReg a v) s = .next (s.ended e (writeRegEvents s.cfg a v) .nothing) :=
  openRequest_scripted ready rfl answers (script_writeReg rfl a v)

/-- Settles O32: each operation runs one register sequence or the two of a pair, low word first (`script_readReg32`,
`script_writeReg32`), which take exactly the script's ready samples and words. -/
theorem registerAccessCompletes : Obligations.RegisterAccessCompletes := by
  intro s e a v d1 r1 d2 r2 v32 ready
  refine ⟨exec_readReg_scripted ready, exec_writeReg_scripted ready, fun answers => ?_, fun answers => ?_⟩
  · exact openRequest_scripted ready rfl answers (script_readReg32 rfl a d1 r1 d2 r2)
  · exact openRequest_scripted ready rfl answers (script_writeReg32 rfl a v32)

/-! ### A write followed by a read on the fake backend (R145) -/

/-- `State.ended` on the fake backend, which the operation left at `b`. -/
def State.endedOnFake (s : State) (b : Backend) (evs : List Event) (v : Value) : State :=
  { s.put (.fake b) .deasserted evs with resp := some (.ok v) }

theorem endedOnFake_accepts {s : State} (ready : s.Accepts) (b : Backend) (evs : List Event) (v : Value) :
    (s.endedOnFake b evs v).Accepts := ⟨ready.idle, ready.session⟩

/-- An accepted request whose sequence takes the fake backend from `b` to `b'` ends with the events of that sequence and
the value of the words received. -/
theorem openRequest_fake {s : State} (ready : s.Accepts) {rs : List (Option Refusal)}
    (accepted : firstRefusal rs = none) {op : Instr} {ret : Ret} {body : List Prim} {b b' : Backend}
    {evs : List Event} {j : Job} (answers : s.env = .fake b)
    (run : runPrims (body ++ []) (Job.start op ret body) (({ s with resp := none } : State).put (.fake b) s.cs []) =
      runPrims [] j (({ s with resp := none } : State).put (.fake b') .deasserted ([] ++ evs))) :
    s.openRequest rs (Job.start op ret body) = .next (s.endedOnFake b' evs (j.ret.value j.got)) := by
  have begins : ({ s with resp := none } : State) = ({ s with resp := none } : State).put (.fake b) s.cs [] := by
    rw [← answers]
    exact put_self _
  rw [List.append_nil] at run
  rw [openRequest_runs ready accepted, begins]
  refine congrArg Host.Outcome.next (run.trans ?_)
  simp [finish, State.put, State.endedOnFake, ready.idle]

/-- `WRITE_REG` on the fake backend. -/
theorem exec_writeReg_fake {s : State} {b : Backend} (ready : s.Accepts) (answers : s.env = .fake b) (a v : Word) :
    exec (.writeReg a v) s = .next (s.endedOnFake (b.wrote s.cfg a v) (writeRegEvents s.cfg a v) .nothing) :=
  openRequest_fake ready rfl answers (fake_writeReg (start_fresh _ _ _) a v)

/-- `READ_REG` on the fake backend. -/
theorem exec_readReg_fake {s : State} {b : Backend} (ready : s.Accepts) (answers : s.env = .fake b) (a : Word) :
    exec (.readReg a) s = .next (s.endedOnFake (b.wasRead s.cfg a) (readRegEvents s.cfg a 0 (b.value s.cfg a))
      (.word (b.value s.cfg a))) :=
  openRequest_fake ready rfl answers (fake_readReg (start_fresh _ _ _) a)

/-- After a write the backend gives the written word, unless its busy polls overlay the status register (D29). -/
theorem value_wrote {c : Cfg} {b : Backend} {a : Word} (canonical : regsWf b.regs = true)
    (unmasked : a ≠ c.regDpyStatus ∨ b.busyLeft = 0) (v : Word) : (b.wrote c a v).value c a = v := by
  have notBusy : ¬ (a = c.regDpyStatus ∧ 0 < b.busyLeft) := by
    rintro ⟨status, busy⟩
    exact unmasked.elim (absurd status) busy.ne'
  rw [Backend.value, Backend.wrote, if_neg notBusy, regsRead_write canonical, if_pos rfl]

/-! ### A write followed by a read on a free oracle (R145) -/

/-- The answers of `Env.script` as a tape, for another script to come before them. -/
def Tape.script (c : Cfg) (n : Nat) (ws : List Word) (e : Tape) : Tape :=
  { rdy := List.replicate n c.readyLevel ++ e.rdy, rx := wireBytes ws ++ e.rx, opens := e.opens }

/-- A script is its first ready samples and then the rest. -/
theorem script_add (c : Cfg) (n m : Nat) (ws : List Word) (e : Tape) :
    Env.script c (n + m) ws e = Env.script c n [] (Tape.script c m ws e) := by
  rw [Env.script, List.replicate_add, List.append_assoc]
  rfl

/-- The word read is the next one the oracle gives, whatever was written. -/
theorem writeReg_readReg_scripted {s : State} {d w : Word} {e : Tape} (ready : s.Accepts)
    (answers : s.env = Env.script s.cfg 13 [d, w] e) (a v : Word) :
    ∃ t u, exec (.writeReg a v) s = .next t ∧ exec (.readReg a) t = .next u ∧ u.resp = some (.ok (.word w)) :=
  ⟨_, _, exec_writeReg_scripted ready (answers.trans (script_add s.cfg 6 7 [d, w] e)),
    exec_readReg_scripted (s := s.ended _ _ .nothing) ⟨ready.idle, ready.session⟩ rfl, rfl⟩

/-- The session of reset, opened on an oracle that is ready thirteen times and then gives a zero dummy and `w`. -/
def openOnOracle (w : Word) : State :=
  { State.reset with isOpen := true, env := Env.script State.reset.cfg 13 [0, w] { rdy := [], rx := [], opens := [] } }

/-- Settles O33: the backend reads back the written word (`value_wrote`); an oracle whose next word is the complement of
the written one gives that word instead (`writeReg_readReg_scripted`). -/
theorem writeThenReadRegister : Obligations.WriteThenReadRegister := by
  refine ⟨fun s b a v ready answers canonical unmasked => ?_, fun a v => ?_⟩
  · have reads := exec_readReg_fake (endedOnFake_accepts ready (b.wrote s.cfg a v) (writeRegEvents s.cfg a v) .nothing)
      rfl a
    exact ⟨_, _, exec_writeReg_fake ready answers a v, reads,
      congrArg (fun w => some (Response.ok (.word w))) (value_wrote canonical unmasked v)⟩
  · have ready : (openOnOracle (~~~v)).Accepts := ⟨rfl, rfl⟩
    obtain ⟨t, u, writes, reads, value⟩ := writeReg_readReg_scripted ready rfl a v
    exact ⟨_, t, u, ~~~v, ready, writes, reads, value, by bv_omega⟩

end Sys2Proof.Machine
end

section
/-!
PROOFS. Image transfer (42_image_transfer R150 to R156): row widths, the target address against a script and on the
fake backend, the load commands, and the host area write with its brackets.
-/

namespace Sys2Proof.Machine

open Sys2Proof

/-! ### Row widths (R150) -/

/-- In an idle block a request that touches no primitive is answered at once. -/
theorem answer_idle {s : State} (idle : s.seq = .idle) (v : Value) :
    s.answer v = .next { s with resp := some (.ok v) } := by
  simp [State.answer, State.busyCheck, idle]

/-- The words of a row hold its bits, and one word fewer does not. -/
theorem wordsPerRow_holds (w : Word) (bpp : Nat) :
    w.toNat * bpp ≤ 16 * wordsPerRow w bpp ∧ 16 * wordsPerRow w bpp < w.toNat * bpp + 16 := by
  unfold wordsPerRow
  omega

/-- Settles O35: an idle block answers `wordsPerRow` (`answer_idle`), open or closed, and that is the quotient rounded
up (`wordsPerRow_holds`). -/
theorem widthWordsCompletes : Obligations.WidthWordsCompletes := by
  intro s w b idle
  exact ⟨wordsPerRow w b, answer_idle idle _, wordsPerRow_holds w b⟩

/-! ### Requests that set the target address, against a script (R151, R155) -/

/-- `State.ended` after an operation that read the target address back as the words `r1` and `r2`: the mismatch flag
takes up whether that is `t`. -/
def State.endedAtTarget (s : State) (t : DWord) (r1 r2 : Word) (e : Tape) (evs : List Event) (v : Value) : State :=
  { s.ended e evs v with tmaMismatch := s.tmaMismatch || decide (readBackAddr s.cfg r1 r2 ≠ t) }

/-- `openRequest_scripted` for a sequence that sets the target address. -/
theorem openRequest_setsTarget {s : State} (ready : s.Accepts) {rs : List (Option Refusal)}
    (accepted : firstRefusal rs = none) {op : Instr} {ret : Ret} {body : List Prim} {n : Nat} {ws : List Word}
    {e : Tape} {evs : List Event} {j : Job} {t : DWord} {r1 r2 : Word} (answers : s.env = Env.script s.cfg n ws e)
    (run : runPrims (body ++ []) (Job.start op ret body)
        (({ s with resp := none } : State).put (Env.script s.cfg n ws e) s.cs []) =
      runPrims [] j (({ s with
          resp := none, tmaMismatch := s.tmaMismatch || decide (readBackAddr s.cfg r1 r2 ≠ t) } : State).put
        (Env.script s.cfg 0 [] e) .deasserted ([] ++ evs))) :
    s.openRequest rs (Job.start op ret body) = .next (s.endedAtTarget t r1 r2 e evs (j.ret.value j.got)) := by
  have begins : ({ s with resp := none } : State) =
      ({ s with resp := none } : State).put (Env.script s.cfg n ws e) s.cs [] := by
    rw [← answers]
    exact put_self _
  rw [List.append_nil] at run
  rw [openRequest_runs ready accepted, begins]
  refine congrArg Host.Outcome.next (run.trans ?_)
  rw [script_zero]
  simp [finish, State.put, State.endedAtTarget, State.ended, ready.idle]

/-- A mismatch is no fault where the address was read back or no fault is configured. -/
theorem noTargetFault {c : Cfg} {r1 r2 : Word} {t : DWord}
    (tolerated : readBackAddr c r1 r2 = t ∨ c.tmaMismatchFault = false) :
    ¬ (readBackAddr c r1 r2 ≠ t ∧ c.tmaMismatchFault = true) := by
  rintro ⟨differs, configured⟩
  rcases tolerated with same | off
  · exact differs same
  · exact Bool.false_ne_true (off.symm.trans configured)

/-- Settles O36: the sequence of `SET_TMA` takes exactly the script's ready samples and words (`script_setTma`). -/
theorem setTargetCompletes : Obligations.SetTargetCompletes := by
  intro s e t d1 r1 d2 r2 ready answers tolerated
  exact openRequest_setsTarget ready rfl answers
    (script_setTma (n := 0) (ws := []) rfl t d1 r1 d2 r2 (noTargetFault tolerated))

/-! ### The target address on the fake backend (R151(d), 92 D29) -/

/-- Busy polls do not overlay the register at `a`, so that a read of it shows the map (92 D29). -/
def Backend.Shows (c : Cfg) (b : Backend) (a : Word) : Prop := a ≠ c.regDpyStatus ∨ b.busyLeft = 0

theorem value_of_shows {c : Cfg} {b : Backend} {a : Word} (shown : b.Shows c a) :
    b.value c a = regsRead b.regs a.toNat := by
  refine if_neg ?_
  rintro ⟨status, busy⟩
  exact shown.elim (absurd status) busy.ne'

/-- A register read takes at most a busy poll away. -/
theorem shows_wasRead {c : Cfg} {b : Backend} {a : Word} (shown : b.Shows c a) (other : Word) :
    (b.wasRead c other).Shows c a := by
  refine shown.imp_right fun noneLeft => ?_
  simp [Backend.wasRead, noneLeft]

/-- What writing two registers and then reading both leaves in the backend. -/
def Backend.pairSet (c : Cfg) (b : Backend) (a1 v1 a2 v2 : Word) : Backend :=
  (((b.wrote c a1 v1).wrote c a2 v2).wasRead c a1).wasRead c a2

theorem pairSet_reads {c : Cfg} {b : Backend} {a1 a2 : Word} (canonical : regsWf b.regs = true) (apart : a1 ≠ a2)
    (v1 v2 : Word) :
    regsRead (b.pairSet c a1 v1 a2 v2).regs a1.toNat = v1 ∧
      regsRead (b.pairSet c a1 v1 a2 v2).regs a2.toNat = v2 := by
  have apart' : a1.toNat ≠ a2.toNat := fun same => apart (BitVec.eq_of_toNat_eq same)
  simp [Backend.pairSet, Backend.wasRead, Backend.wrote, regsRead_write, regsWrite_wf, canonical, apart']

section

variable {ps : List Prim} {j : Job} {s : State} {b : Backend} {cs : CsLatch} {evs : List Event}

/-- Two registers written and then read against the backend give the words written. -/
theorem fake_pairSet (fresh : j.Fresh) {a1 a2 : Word} (canonical : regsWf b.regs = true) (apart : a1 ≠ a2)
    (shown1 : b.Shows s.cfg a1) (shown2 : b.Shows s.cfg a2) (v1 v2 : Word) :
    runPrims (writeRegSeq s.cfg a1 v1 ++ (writeRegSeq s.cfg a2 v2 ++
        (readRegSeq s.cfg a1 ++ (readRegSeq s.cfg a2 ++ ps)))) j (s.put (.fake b) cs evs)
      = runPrims ps ((j.take v1).take v2) (s.put (.fake (b.pairSet s.cfg a1 v1 a2 v2)) .deasserted
          (evs ++ (writeRegEvents s.cfg a1 v1 ++ writeRegEvents s.cfg a2 v2 ++ readRegEvents s.cfg a1 0 v1 ++
            readRegEvents s.cfg a2 0 v2))) := by
  obtain ⟨read1, read2⟩ := pairSet_reads (c := s.cfg) canonical apart v1 v2
  have value1 : ((b.wrote s.cfg a1 v1).wrote s.cfg a2 v2).value s.cfg a1 = v1 :=
    (value_of_shows (b := (b.wrote s.cfg a1 v1).wrote s.cfg a2 v2) shown1).trans read1
  have value2 : (((b.wrote s.cfg a1 v1).wrote s.cfg a2 v2).wasRead s.cfg a1).value s.cfg a2 = v2 :=
    (value_of_shows (shows_wasRead (b := (b.wrote s.cfg a1 v1).wrote s.cfg a2 v2) shown2 a1)).trans read2
  rw [fake_writeReg fresh, fake_writeReg fresh, fake_readReg fresh, value1, fake_readReg (fresh.take v1), value2]
  simp [Backend.pairSet]

/-- The comparison of `SET_TMA` on the address that was written changes nothing. -/
theorem runPrims_tmaCheck_same {t : DWord} {r1 r2 : Word} (same : readBackAddr s.cfg r1 r2 = t) :
    runPrims (.tmaCheck t :: ps) ((j.take r1).take r2) s = runPrims ps ((j.take r1).take r2) s := by
  refine runPrims_go ?_
  have back : readBackOf s.cfg.tmaOrder r1 r2 = t := same
  simp [perform, checkTma, Job.take, back, tmaDiffers, State.noteMismatch]

end

theorem join32_halves (t : DWord) : join32 (hi16 t) (lo16 t) = t := by
  unfold join32 hi16 lo16
  rw [BitVec.extractLsb'_append_extractLsb'_eq_extractLsb' (by rfl)]
  exact BitVec.extractLsb'_eq_self

theorem ne_pairHigh (a : Word) : a ≠ pairHigh a := by
  unfold pairHigh
  bv_omega

/-- The two address registers, each with the half of the target that belongs in it. -/
def targetHalves (c : Cfg) (t : DWord) : List (Word × Word) :=
  [(c.regLisar, lo16 t), (pairHigh c.regLisar, hi16 t)]

/-- `SET_TMA` writes two registers, reads both and compares: the two halves of the target, in `TMA_ORDER` (90 C1). -/
theorem setTmaSeq_halves (c : Cfg) (t : DWord) : ∃ a1 v1 a2 v2 : Word,
    setTmaSeq c t = writeRegSeq c a1 v1 ++ (writeRegSeq c a2 v2 ++ (readRegSeq c a1 ++ (readRegSeq c a2 ++
      [.tmaCheck t]))) ∧
    readBackAddr c v1 v2 = t ∧ (targetHalves c t).Perm [(a1, v1), (a2, v2)] := by
  rcases order : c.tmaOrder with _ | _
  · exact ⟨c.regLisar, lo16 t, pairHigh c.regLisar, hi16 t, by simp [setTmaSeq, order],
      by simp [readBackAddr, order, join32_halves], .refl _⟩
  · exact ⟨pairHigh c.regLisar, hi16 t, c.regLisar, lo16 t, by simp [setTmaSeq, order],
      by simp [readBackAddr, order, join32_halves], .swap _ _ _⟩

/-- `SET_TMA` against the backend leaves each half in its register and reads the address back, so nothing else of the
block changes. -/
theorem fake_setTma {ps : List Prim} {j : Job} {s : State} {b : Backend} {cs : CsLatch} {evs : List Event}
    (fresh : j.Fresh) (canonical : regsWf b.regs = true) (t : DWord)
    (shown : ∀ half ∈ targetHalves s.cfg t, b.Shows s.cfg half.1) :
    ∃ r1 r2 b' evs', runPrims (setTmaSeq s.cfg t ++ ps) j (s.put (.fake b) cs evs)
        = runPrims ps ((j.take r1).take r2) (s.put (.fake b') .deasserted (evs ++ evs')) ∧
      ∀ half ∈ targetHalves s.cfg t, regsRead b'.regs half.1.toNat = half.2 := by
  obtain ⟨a1, v1, a2, v2, seq, back, order⟩ := setTmaSeq_halves s.cfg t
  have apart : a1 ≠ a2 := by
    have registers : [s.cfg.regLisar, pairHigh s.cfg.regLisar].Perm [a1, a2] := order.map Prod.fst
    simpa using registers.nodup_iff.1 (by simp [ne_pairHigh])
  have shown1 : b.Shows s.cfg a1 := shown (a1, v1) (order.mem_iff.2 (by simp))
  have shown2 : b.Shows s.cfg a2 := shown (a2, v2) (order.mem_iff.2 (by simp))
  have run := (fake_pairSet (ps := .tmaCheck t :: ps) (cs := cs) (evs := evs) fresh canonical apart shown1 shown2
    v1 v2).trans (runPrims_tmaCheck_same back)
  simp only [seq, List.append_assoc]
  refine ⟨v1, v2, _, _, run, fun half isHalf => ?_⟩
  obtain ⟨read1, read2⟩ := pairSet_reads (c := s.cfg) canonical apart v1 v2
  have isPair := order.mem_iff.1 isHalf
  simp only [List.mem_cons, List.not_mem_nil, or_false] at isPair
  rcases isPair with rfl | rfl
  · exact read1
  · exact read2

/-- Settles O38: `SET_TMA` leaves each half in its register and reads the address back (`fake_setTma`); the premise says
that no busy poll overlays either register. -/
theorem setTargetReadsBackOnBackend : Obligations.SetTargetReadsBackOnBackend := by
  intro s b t ready answers canonical unmasked
  have shown : ∀ half ∈ targetHalves s.cfg t, b.Shows s.cfg half.1 := by
    rcases unmasked with notBusy | ⟨notLow, notHigh⟩
    · exact fun _ _ => .inr notBusy
    · simpa [targetHalves, Backend.Shows, pairHigh] using And.intro (Or.inl notLow.symm) (Or.inl notHigh.symm)
  obtain ⟨r1, r2, b', evs, run, reads⟩ := fake_setTma (ps := []) (s := { s with resp := none }) (cs := s.cs)
    (evs := []) (start_fresh (.setTma t) .nothing (setTmaSeq s.cfg t)) canonical t shown
  exact ⟨_, b', openRequest_fake ready (rs := []) rfl answers run, rfl, rfl, rfl,
    reads (s.cfg.regLisar, lo16 t) (by simp [targetHalves]),
    reads (pairHigh s.cfg.regLisar, hi16 t) (by simp [targetHalves])⟩

/-! ### The load commands (R152 to R154) -/

/-- `LD_IMG_START` against a script. -/
theorem script_ldImgStart {ps : List Prim} {j : Job} {s : State} {n : Nat} {ws : List Word} {e : Tape} {cs : CsLatch}
    {evs : List Event} (fresh : j.gatePolls = 0) (info : LoadImageInfo) :
    runPrims (ldImgStartSeq s.cfg info ++ ps) j (s.put (Env.script s.cfg (n + 4) ws e) cs evs)
      = runPrims ps j (s.put (Env.script s.cfg n ws e) .deasserted
          (evs ++ (cmdFrame s.cfg s.cfg.cmdLdImg ++ dataFrame s.cfg [hdr info]))) := by
  rw [ldImgStartSeq, List.append_assoc, script_sendCmd (n := n + 2) fresh, script_sendData fresh, List.append_assoc]

/-- Settles O39: each is a command with its arguments, which a script of as many gates answers. -/
theorem loadCommandsComplete : Obligations.LoadCommandsComplete := by
  intro s e info a ready
  refine ⟨fun answers => ?_, fun answers => ?_, fun answers => ?_⟩
  · exact openRequest_scripted ready rfl answers (script_ldImgStart rfl info)
  · exact openRequest_scripted ready rfl answers (script_args (n := 0) rfl _ (loadAreaArgs info a))
  · exact openRequest_scripted ready rfl answers (script_sendCmd rfl _)

/-! ### The frames of a host area write (R155, R156) -/

/-- A history that ends outside a scope is read apart from what follows it. -/
theorem framesFrom_append {scope : Option (List Byte × List Byte)} {es es' : List Event} {fs fs' : List WireFrame}
    (before : framesFrom scope es = some fs) (after : frames es' = some fs') :
    framesFrom scope (es ++ es') = some (fs ++ fs') := by
  induction scope, es using framesFrom.induct generalizing fs with
  | case1 =>
    obtain rfl := Option.some.inj before
    exact after
  | case4 tx rx es f gs rest isFrame ih =>
    obtain rfl : f :: gs = fs := by simpa [framesFrom, rest, isFrame] using before
    simp [framesFrom, isFrame, ih rest]
  | case5 tx rx es noFrame ih =>
    rw [framesFrom] at before
    split at before
    · next f gs isFrame rest => exact (noFrame f gs isFrame rest).elim
    · cases before
  | _ => simp_all [framesFrom]

theorem frames_append {es es' : List Event} {fs fs' : List WireFrame} (before : frames es = some fs)
    (after : frames es' = some fs') : frames (es ++ es') = some (fs ++ fs') := framesFrom_append before after

/-- The codes of the load commands. -/
def loadCodes (c : Cfg) : List Word := [c.cmdLdImg, c.cmdLdImgArea, c.cmdLdImgEnd]

/-- A history of whole frames that commands register accesses only. -/
def AccessesRegisters (c : Cfg) (es : List Event) : Prop :=
  ∃ fs, frames es = some fs ∧ ∀ code, .command code ∈ fs → code ∈ [c.cmdRegRd, c.cmdRegWr]

theorem AccessesRegisters.append {c : Cfg} {es es' : List Event} (before : AccessesRegisters c es)
    (after : AccessesRegisters c es') : AccessesRegisters c (es ++ es') := by
  obtain ⟨fs, read, codes⟩ := before
  obtain ⟨fs', read', codes'⟩ := after
  refine ⟨fs ++ fs', frames_append read read', fun code sent => ?_⟩
  exact (List.mem_append.1 sent).elim (codes code) (codes' code)

theorem readRegEvents_accessesRegisters (c : Cfg) (a d v : Word) : AccessesRegisters c (readRegEvents c a d v) :=
  ⟨_, frames_append (frames_append (frames_outFrame c (classify_command _)) (frames_outFrame c (classify_write a [])))
    (frames_readFrame c (classify_read d v [])), by simp⟩

theorem writeRegEvents_accessesRegisters (c : Cfg) (a v : Word) : AccessesRegisters c (writeRegEvents c a v) :=
  ⟨_, frames_append (frames_append (frames_outFrame c (classify_command _)) (frames_outFrame c (classify_write a [])))
    (frames_outFrame c (classify_write v [])), by simp⟩

theorem setTmaEvents_accessesRegisters (c : Cfg) (t : DWord) (d1 r1 d2 r2 : Word) :
    AccessesRegisters c (setTmaEvents c t d1 r1 d2 r2) := by
  have writes := writeRegEvents_accessesRegisters c
  have reads := readRegEvents_accessesRegisters c
  unfold setTmaEvents
  split
  · exact (((writes _ _).append (writes _ _)).append (reads _ _ _)).append (reads _ _ _)
  · exact (((writes _ _).append (writes _ _)).append (reads _ _ _)).append (reads _ _ _)

/-- Frames without a load command, in front of others, leave these to be bracketed. -/
theorem loadsBracketed_append {c : Cfg} {fs : List WireFrame}
    (noLoad : ∀ code, .command code ∈ fs → code ∉ loadCodes c) (gs : List WireFrame) :
    loadsBracketed c false (fs ++ gs) = loadsBracketed c false gs := by
  induction fs with
  | nil => rfl
  | cons f fs ih =>
    have rest := ih fun code sent => noLoad code (List.mem_cons_of_mem _ sent)
    cases f with
    | command code =>
      have other : code ∉ loadCodes c := noLoad code List.mem_cons_self
      simp only [loadCodes, List.mem_cons, List.not_mem_nil, or_false, not_or] at other
      simp [loadsBracketed, other, rest]
    | write ws => simpa [loadsBracketed] using rest
    | read d ws => simpa [loadsBracketed] using rest

/-- The frames of a load, from its start to its end. -/
def loadFrames (c : Cfg) (args src : List Word) : List WireFrame :=
  [.command c.cmdLdImgArea, .write args, .write src, .command c.cmdLdImgEnd]

theorem loadFrames_bracketed (c : Cfg) (args src : List Word) :
    loadsBracketed c false (loadFrames c args src) = true := by
  simp [loadFrames, loadsBracketed]

/-- A host area write puts register accesses on the wire, and then its load from start to end. -/
theorem frames_loadEvents (c : Cfg) (info : LoadImageInfo) (a : AreaImageInfo) (d1 r1 d2 r2 : Word)
    (full : info.src ≠ []) : ∃ fs, frames (loadEvents c info a d1 r1 d2 r2) =
        some (fs ++ loadFrames c (loadAreaArgs info a) info.src) ∧
      ∀ code, .command code ∈ fs → code ∈ [c.cmdRegRd, c.cmdRegWr] := by
  obtain ⟨fs, target, codes⟩ := setTmaEvents_accessesRegisters c info.target d1 r1 d2 r2
  have start : frames (argsEvents c c.cmdLdImgArea (loadAreaArgs info a)) =
      some [.command c.cmdLdImgArea, .write (loadAreaArgs info a)] :=
    frames_append (frames_outFrame c (classify_command _)) (frames_outFrame c (classify_write _ _))
  have pixels : frames (dataFrame c info.src) = some [.write info.src] := by
    obtain ⟨w, ws, src⟩ := List.exists_cons_of_ne_nil full
    rw [src]
    exact frames_outFrame c (classify_write w ws)
  have stop : frames (cmdFrame c c.cmdLdImgEnd) = some [.command c.cmdLdImgEnd] :=
    frames_outFrame c (classify_command _)
  refine ⟨fs, ?_, codes⟩
  simpa [loadEvents, loadFrames, loadAreaArgs] using
    frames_append (frames_append (frames_append target start) pixels) stop

/-- Settles O40: the sequence, which neither `bpp` nor `packed` enters, takes exactly the script's ready samples and
words (`script_load`); of its frames (`frames_loadEvents`) the register accesses are no load commands, and the others
start with the load's start and end with its end. -/
theorem hostAreaWriteCompletes : Obligations.HostAreaWriteCompletes := by
  refine ⟨fun s e info a bpp packed d1 r1 d2 r2 ready full answers tolerated => ?_,
    fun c info a d1 r1 d2 r2 full noLoad => ?_⟩
  · exact openRequest_setsTarget ready (emptyCheck_full full) (by simpa using answers)
      (script_load (n := 0) (ws := []) rfl info a d1 r1 d2 r2 (noTargetFault tolerated))
  · obtain ⟨fs, read, codes⟩ := frames_loadEvents c info a d1 r1 d2 r2 full
    refine ⟨_, read, ?_⟩
    rw [loadsBracketed_append fun code sent => noLoad code (codes code sent)]
    exact loadFrames_bracketed c _ _

end Sys2Proof.Machine
end

section
/-!
PROOFS. The display controller (43_display R165 to R169): the display wait, its end, its further polls and its timeout,
and the operations that contain it.
-/

namespace Sys2Proof.Machine

open Sys2Proof

/-! ### Requests and steps against a script -/

/-- An accepted request against a script runs its sequence from the script's first answer. -/
theorem openRequest_begins {s : State} (ready : s.Accepts) {rs : List (Option Refusal)}
    (accepted : firstRefusal rs = none) (op : Instr) (ret : Ret) (body : List Prim) {n : Nat} {ws : List Word}
    {e : Tape} (answers : s.env = Env.script s.cfg n ws e) :
    s.openRequest rs (Job.start op ret body) = .next (runPrims body (Job.start op ret body)
      (({ s with resp := none } : State).put (Env.script s.cfg n ws e) s.cs [])) := by
  rw [openRequest_runs ready accepted, ← answers]
  exact congrArg (fun t => Host.Outcome.next (runPrims body (Job.start op ret body) t)) (put_self _)

/-- A step of a waiting operation against a script runs what is left of it from the script's first answer. -/
theorem step_scripted {s : State} {j : Job} {todo : List Prim} (running : s.seq = .running j) (left : j.todo = todo)
    {n : Nat} {ws : List Word} {e : Tape} (answers : s.env = Env.script s.cfg n ws e) :
    step s = .next (runPrims todo j (({ s with seq := .idle } : State).put (Env.script s.cfg n ws e) s.cs [])) := by
  rw [step_running running, left, ← answers]
  exact congrArg (fun t => Host.Outcome.next (runPrims todo j t)) (put_self _)

/-! ### Complete operations without a wait (R166, R167, R169) -/

/-- Settles O42: each is a command with its arguments, which a script of as many gates answers (`script_display`). -/
theorem displayCommandsComplete : Obligations.DisplayCommandsComplete := by
  intro s e x y w h mode addr ready
  refine ⟨fun answers => ?_, fun answers => ?_⟩
  · exact openRequest_scripted ready rfl answers (script_display (n := 0) rfl x y w h mode none)
  · exact openRequest_scripted ready rfl answers (script_display (n := 0) rfl x y w h mode (some addr))

section

variable {ps : List Prim} {j : Job} {s : State} {n : Nat} {ws : List Word} {e : Tape} {cs : CsLatch} {evs : List Event}

/-- `ENHANCE_DRV` without the read-back. -/
theorem script_enhanceDrv (fresh : j.gatePolls = 0) (once : s.cfg.edcReadback = false) (d old : Word) :
    runPrims (enhanceDrvSeq s.cfg ++ ps) j (s.put (Env.script s.cfg (n + 13) (d :: old :: ws) e) cs evs)
      = runPrims ps (j.take old) (s.put (Env.script s.cfg n ws e) .deasserted
          (evs ++ (readRegEvents s.cfg s.cfg.regEdc d old ++ writeRegEvents s.cfg s.cfg.regEdc Config.edcValue))) := by
  have written : (j.take old).gatePolls = 0 := fresh
  simp only [enhanceDrvSeq, once, Bool.false_eq_true, if_false, List.append_nil, List.append_assoc]
  rw [script_readReg (n := n + 6) fresh, script_writeReg written, List.append_assoc]

/-- `ENHANCE_DRV` with the read-back is the one without and then a register read. -/
theorem script_enhanceDrv_readback (fresh : j.gatePolls = 0) (twice : s.cfg.edcReadback = true) (d1 old d2 new : Word) :
    runPrims (enhanceDrvSeq s.cfg ++ ps) j (s.put (Env.script s.cfg (n + 20) (d1 :: old :: d2 :: new :: ws) e) cs evs)
      = runPrims ps ((j.take old).take new) (s.put (Env.script s.cfg n ws e) .deasserted
          (evs ++ (readRegEvents s.cfg s.cfg.regEdc d1 old ++ writeRegEvents s.cfg s.cfg.regEdc Config.edcValue ++
            readRegEvents s.cfg s.cfg.regEdc d2 new))) := by
  have written : (j.take old).gatePolls = 0 := fresh
  simp only [enhanceDrvSeq, twice, if_true, List.append_assoc]
  rw [script_readReg (n := n + 7 + 6) fresh, script_writeReg written, script_readReg written]
  simp only [List.append_assoc]

end

/-- Settles O44: the sequence ends with the read-back or without it (`script_enhanceDrv_readback`,
`script_enhanceDrv`), and the first word received is the value before the write. -/
theorem enhanceDrvCompletes : Obligations.EnhanceDrvCompletes := by
  intro s e d1 old d2 new ready
  refine ⟨fun once answers => ?_, fun twice answers => ?_⟩
  · exact openRequest_scripted ready rfl answers
      (script_enhanceDrv (s := { s with resp := none }) (n := 0) (ws := []) rfl once d1 old)
  · exact openRequest_scripted ready rfl answers
      (script_enhanceDrv_readback (s := { s with resp := none }) (n := 0) (ws := []) rfl twice d1 old d2 new)

/-! ### The display wait (R165) -/

/-- A fault after the events `evs` ends the operation as `State.faulted` says. -/
theorem raiseFault_put (f : Fault) (j : Job) (s : State) (e : Tape) (cs : CsLatch) (evs : List Event) :
    raiseFault f j (s.put (.tape e) cs evs) = s.faulted j e cs evs f := by
  cases closes : j.closeOnFault && s.isOpen <;>
    simp [raiseFault, State.faulted, State.put, closes, State.closeAfterFault, State.emit, Env.observe]

section

variable {ps : List Prim} {j : Job} {s : State} {n : Nat} {ws : List Word} {e : Tape} {cs : CsLatch} {evs : List Event}

/-- A display wait that reads a busy status at its bound: the timeout is kept for later where `defer` says so, and
raised otherwise. -/
theorem script_waitDpy_timeout {b : ℕ+} {v : Word} (busy : v ≠ 0) (fresh : j.gatePolls = 0)
    (bound : s.cfg.pollBound = some b) (reached : (b : Nat) ≤ j.dpyPolls + 1) (defer : Bool) (d : Word) :
    runPrims (waitDpySeq s.cfg defer ++ ps) j (s.put (Env.script s.cfg (n + 7) (d :: v :: ws) e) cs evs)
      = if defer then
          runPrims ps { j with dpyPolls := 0, late := true } (s.put (Env.script s.cfg n ws e) .deasserted
            (evs ++ readRegEvents s.cfg s.cfg.regDpyStatus d v))
        else
          raiseFault (.waitTimeout .display) j (s.put (Env.script s.cfg n ws e) .deasserted
            (evs ++ readRegEvents s.cfg s.cfg.regDpyStatus d v)) := by
  have isBusy : statusBusy (j.take v).last = true := by simpa [statusBusy, take_last] using busy
  have hit : boundHit s.cfg ((j.take v).dpyPolls + 1) = true := boundHit_reached bound reached
  have dropped : { j.take v with got := (j.take v).got.dropLast } = j := by simp [Job.take]
  rw [waitDpySeq, List.append_assoc, script_readReg fresh, List.singleton_append, runPrims_cons, perform, pollDisplay,
    put_cfg, isBusy, hit, dropped]
  cases defer <;> rfl

/-- A display wait that reads a busy status `k` times below its bound and then zero goes on after as many waiting
steps. -/
theorem waitDpy_goesOn (k : Nat) {d v d' : Word} (idle : s.seq = .idle) (fresh : j.gatePolls = 0) (busy : v ≠ 0)
    (below : ∀ b : ℕ+, s.cfg.pollBound = some b → j.dpyPolls + k < (b : Nat)) (defer : Bool) :
    ∃ todo, goesOnTo k
      (runPrims (waitDpySeq s.cfg defer ++ ps) j
        (s.put (Env.script s.cfg (7 * k + (n + 7)) ((List.replicate k [d, v]).flatten ++ d' :: 0 :: ws) e) cs evs))
      (runPrims ps { j with dpyPolls := 0, todo := todo } (s.put (Env.script s.cfg n ws e) .deasserted
        (evs ++ (List.replicate k (busyPoll s.cfg d v)).flatten ++
          readRegEvents s.cfg s.cfg.regDpyStatus d' 0))) := by
  induction k generalizing j cs evs with
  | zero =>
    refine ⟨j.todo, ?_⟩
    simp only [Nat.mul_zero, Nat.zero_add, List.replicate_zero, List.flatten_nil, List.nil_append, List.append_nil]
    rw [script_waitDpy fresh]
    rfl
  | succ k ih =>
    have gates : 7 * (k + 1) + (n + 7) = 7 * k + (n + 7) + 7 := by omega
    have waits := script_busyPoll (ps := ps) (s := s) (n := 7 * k + (n + 7)) (e := e) (cs := cs) (evs := evs)
      (ws := (List.replicate k [d, v]).flatten ++ d' :: 0 :: ws) busy fresh
      (fun b bound => by have := below b bound; omega) defer d
    obtain ⟨todo, goes⟩ := ih (cs := .deasserted) (evs := evs ++ busyPoll s.cfg d v)
      (j := { j with dpyPolls := j.dpyPolls + 1, todo := waitDpySeq s.cfg defer ++ ps }) fresh
      (fun b bound => by have := below b bound; simp only; omega)
    refine ⟨todo, ?_⟩
    simp only [List.replicate_succ, List.flatten_cons, List.cons_append, List.nil_append, gates, waits]
    refine ⟨nofun, _, step_running rfl, ?_⟩
    simpa [State.put, idle] using goes

end

/-- Settles O41: the wait ends at a zero status, at its first poll (`script_waitFirst`), after busy ones
(`waitDpy_goesOn`), or in a step that polls again (`script_waitDpy`). -/
theorem waitDpyReadyCompletes : Obligations.WaitDpyReadyCompletes := by
  refine ⟨fun s e d ready answers => ?_, fun n s e d v d' ready busy below answers => ?_,
    fun s j defer rest d e running left fresh answers => ?_⟩
  · exact openRequest_scripted ready rfl answers (script_waitFirst (n := 0) (ws := []) (start_fresh _ _ _) false d)
  · obtain ⟨todo, goes⟩ := waitDpy_goesOn n (ps := []) (ws := []) (n := 0) (e := e) (d := d) (d' := d')
      (s := { s with resp := none }) (j := Job.start .waitDpyReady .nothing (waitDpySeq s.cfg false)) (cs := s.cs)
      (evs := []) ready.idle rfl busy (by simpa [Job.start] using below) false
    refine ⟨n, _, openRequest_begins ready rfl _ _ _ answers, ?_, ready.idle, rfl⟩
    simpa [script_zero, finish, State.put, State.ended, Ret.value, Job.start, ready.idle] using goes
  · rw [step_scripted running left answers,
      script_waitDpy (s := { s with seq := .idle }) (n := 0) (ws := []) fresh, script_zero]
    rfl

/-- Settles O29: a busy status is a failed poll (`script_busyPoll`) unless it hits the bound, and then it is the timeout
(`script_waitDpy_timeout`), which ends the operation at once (`raiseFault_put`) or is kept back. -/
theorem busyDisplayWaitsOrTimesOut : Obligations.BusyDisplayWaitsOrTimesOut := by
  refine ⟨fun s e d v ready answers busy => ⟨fun below => ?_, fun bound => ?_⟩,
    fun s j defer rest b d v e running left fresh busy bound reached answers => ?_⟩
  · have waits := script_busyPoll (ps := []) (s := { s with resp := none }) (n := 0) (ws := []) (cs := s.cs)
      (evs := []) (e := e) (j := Job.start .waitDpyReady .nothing (waitDpySeq s.cfg false)) busy rfl below false d
    rw [List.append_nil, script_zero] at waits
    exact (openRequest_begins ready rfl _ _ _ answers).trans (congrArg Host.Outcome.next waits)
  · have ends := script_waitDpy_timeout (ps := []) (s := { s with resp := none }) (n := 0) (ws := []) (cs := s.cs)
      (evs := []) (e := e) (j := Job.start .waitDpyReady .nothing (waitDpySeq s.cfg false)) busy rfl bound le_rfl
      false d
    rw [List.append_nil, script_zero, if_neg Bool.false_ne_true, raiseFault_put] at ends
    refine (openRequest_begins ready rfl _ _ _ answers).trans (congrArg Host.Outcome.next (ends.trans ?_))
    simp [State.faulted, Job.start, ready.idle]
  · rw [step_scripted running left answers, script_waitDpy_timeout (s := { s with seq := .idle }) (n := 0) (ws := [])
      busy fresh bound reached, script_zero, raiseFault_put]
    rfl

/-! ### The 1bpp mode (R168) -/

/-- What `DPY_1BPP` puts on the bus before its wait (`script_dpy1bpp_toWait`): the control register reads `v` after the
dummy `d`. -/
def startEvents1bpp (c : Cfg) (x y w h mode : Word) (addr : Option DWord) (bg fg : Byte) (d v : Word) : List Event :=
  readRegEvents c c.reg1bppCtrl d v ++ writeRegEvents c c.reg1bppCtrl (v ||| mask1bpp c) ++
    writeRegEvents c c.regBgvr (bgvr c bg fg) ++ displayEvents c x y w h mode addr

/-- The job of `DPY_1BPP` when it comes to its wait (`dpy1bpp_toWait`), the control register's word `v` received. -/
def waiting1bpp (c : Cfg) (x y w h mode : Word) (addr : Option DWord) (bg fg : Byte) (v : Word) : Job :=
  (Job.start (.dpy1bpp x y w h mode addr bg fg) .nothing (dpy1bppSeq c x y w h mode addr bg fg)).take v

section

variable {ps : List Prim} {j : Job} {s : State} {n : Nat} {ws : List Word} {e : Tape} {cs : CsLatch} {evs : List Event}

/-- `DPY_1BPP` up to its wait: the mode-select bit set, the colour table written, the display command. -/
theorem script_dpy1bpp_toWait (fresh : j.gatePolls = 0) (x y w h mode : Word) (addr : Option DWord) (bg fg : Byte)
    (d v : Word) :
    runPrims (dpy1bppSeq s.cfg x y w h mode addr bg fg ++ ps) j
        (s.put (Env.script s.cfg (n + displayGates addr + 19) (d :: v :: ws) e) cs evs)
      = runPrims (waitDpySeq s.cfg true ++ (clear1bppSeq s.cfg ++ ps)) (j.take v)
          (s.put (Env.script s.cfg n ws e) .deasserted
            (evs ++ startEvents1bpp s.cfg x y w h mode addr bg fg d v)) := by
  have taken : (j.take v).gatePolls = 0 := fresh
  simp only [dpy1bppSeq, List.append_assoc]
  rw [script_readReg (n := n + displayGates addr + 6 + 6) fresh, script_writeMasked taken, script_writeReg taken,
    script_display taken, take_last]
  simp [with1bpp, startEvents1bpp]

/-- The end of `DPY_1BPP` after its wait with the timeout kept back: the bit is cleared, and then the fault raised. -/
theorem script_clear1bpp_late (fresh : j.gatePolls = 0) (late : j.late = true) (d v : Word) :
    runPrims (clear1bppSeq s.cfg ++ ps) j (s.put (Env.script s.cfg (n + 13) (d :: v :: ws) e) cs evs)
      = raiseFault (.waitTimeout .display) (j.take v) (s.put (Env.script s.cfg n ws e) .deasserted
          (evs ++ readRegEvents s.cfg s.cfg.reg1bppCtrl d v ++
            writeRegEvents s.cfg s.cfg.reg1bppCtrl (v &&& ~~~(mask1bpp s.cfg)))) := by
  have taken : (j.take v).gatePolls = 0 := fresh
  have keptBack : (j.take v).late = true := late
  simp only [clear1bppSeq, List.append_assoc, List.cons_append, List.nil_append]
  rw [script_readReg (n := n + 6) fresh, script_writeMasked taken, take_last, runPrims_cons, perform, keptBack]
  simp [with1bpp]

/-- `DPY_1BPP` from its wait on, where the wait hits its bound. -/
theorem script_waitDpy_clear1bpp_timeout {b : ℕ+} {st : Word} (busy : st ≠ 0) (fresh : j.gatePolls = 0)
    (bound : s.cfg.pollBound = some b) (reached : (b : Nat) ≤ j.dpyPolls + 1) (d2 d3 v2 : Word) :
    runPrims (waitDpySeq s.cfg true ++ clear1bppSeq s.cfg) j (s.put (Env.script s.cfg 20 [d2, st, d3, v2] e) cs evs)
      = s.faulted j e .deasserted
          (evs ++ (readRegEvents s.cfg s.cfg.regDpyStatus d2 st ++ readRegEvents s.cfg s.cfg.reg1bppCtrl d3 v2 ++
            writeRegEvents s.cfg s.cfg.reg1bppCtrl (v2 &&& ~~~(mask1bpp s.cfg)))) (.waitTimeout .display) := by
  rw [script_waitDpy_timeout (n := 13) busy fresh bound reached, if_pos rfl, ← List.append_nil (clear1bppSeq s.cfg),
    script_clear1bpp_late (j := { j with dpyPolls := 0, late := true }) (n := 0) fresh rfl, script_zero, raiseFault_put]
  simp only [List.append_assoc]
  rfl

end

/-- An accepted `DPY_1BPP` against a script comes to its wait, the control register's word received. -/
theorem dpy1bpp_toWait {s : State} (ready : s.Accepts) (x y w h mode : Word) (addr : Option DWord) (bg fg : Byte)
    {n : Nat} {d v : Word} {ws : List Word} {e : Tape}
    (answers : s.env = Env.script s.cfg (n + displayGates addr + 19) (d :: v :: ws) e) :
    exec (.dpy1bpp x y w h mode addr bg fg) s = .next (runPrims (waitDpySeq s.cfg true ++ clear1bppSeq s.cfg)
      (waiting1bpp s.cfg x y w h mode addr bg fg v)
      (({ s with resp := none } : State).put (Env.script s.cfg n ws e) .deasserted
        (startEvents1bpp s.cfg x y w h mode addr bg fg d v))) := by
  have run := script_dpy1bpp_toWait (ps := []) (s := { s with resp := none }) (n := n) (ws := ws) (e := e) (cs := s.cs)
    (evs := []) (j := Job.start (.dpy1bpp x y w h mode addr bg fg) .nothing (dpy1bppSeq s.cfg x y w h mode addr bg fg))
    rfl x y w h mode addr bg fg d v
  rw [List.append_nil, List.append_nil, List.nil_append] at run
  exact (openRequest_begins ready rfl _ _ _ answers).trans (congrArg Host.Outcome.next run)

/-- Settles O30: the wait's timeout is kept back (`script_waitDpy_timeout`) until the bit is cleared
(`script_clear1bpp_late`); below the bound the wait is a failed poll (`script_busyPoll`). -/
theorem lateTimeoutClearsBit : Obligations.LateTimeoutClearsBit := by
  refine ⟨fun s e x y w h mode addr bg fg d1 v d2 st d3 v2 ready bound busy answers => ?_,
    fun s e x y w h mode addr bg fg d1 v d2 st ready below busy answers => ?_,
    fun s j b e d2 st d3 v2 running left fresh busy bound reached answers => ?_⟩
  · have gates : displayGates addr + 39 = 20 + displayGates addr + 19 := by omega
    rw [gates] at answers
    have ends := script_waitDpy_clear1bpp_timeout (s := { s with resp := none }) (cs := .deasserted)
      (evs := startEvents1bpp s.cfg x y w h mode addr bg fg d1 v) (e := e)
      (j := waiting1bpp s.cfg x y w h mode addr bg fg v) busy rfl bound le_rfl d2 d3 v2
    refine (dpy1bpp_toWait ready x y w h mode addr bg fg answers).trans (congrArg Host.Outcome.next (ends.trans ?_))
    simp [State.faulted, waiting1bpp, Job.take, Job.start, ready.idle, mono1bppEvents, startEvents1bpp]
  · have gates : displayGates addr + 26 = 7 + displayGates addr + 19 := by omega
    rw [gates] at answers
    have waits := script_busyPoll (ps := clear1bppSeq s.cfg) (s := { s with resp := none }) (n := 0) (ws := [])
      (cs := .deasserted) (evs := startEvents1bpp s.cfg x y w h mode addr bg fg d1 v) (e := e)
      (j := waiting1bpp s.cfg x y w h mode addr bg fg v) busy rfl below true d2
    rw [script_zero] at waits
    refine (dpy1bpp_toWait ready x y w h mode addr bg fg answers).trans (congrArg Host.Outcome.next (waits.trans ?_))
    simp [State.put, waiting1bpp, Job.take, Job.start, startEvents1bpp]
  · have ends := script_waitDpy_clear1bpp_timeout (s := { s with seq := .idle }) (cs := s.cs) (evs := [])
      (e := e) busy fresh bound reached d2 d3 v2
    rw [List.nil_append] at ends
    exact (step_scripted running left answers).trans (congrArg Host.Outcome.next ends)

/-- Settles O43: the whole sequence against its script (`script_dpy1bpp`); with busy polls the wait goes on
(`waitDpy_goesOn`) until the bit is cleared (`script_clear1bpp`), which a waiting operation does in the step that reads
zero (`script_waitDpy`). -/
theorem mono1bppCompletes : Obligations.Mono1bppCompletes := by
  refine ⟨fun s e x y w h mode addr bg fg d1 v d2 d3 v2 ready answers => ?_,
    fun n s e x y w h mode addr bg fg d1 v d st d2 d3 v2 ready busy below answers => ?_,
    fun s j e d2 d3 v2 running left fresh onTime answers => ?_⟩
  · exact openRequest_scripted ready rfl (by simpa using answers)
      (script_dpy1bpp (n := 0) (ws := []) (start_fresh _ _ _) x y w h mode addr bg fg d1 v d2 d3 v2)
  · have gates : 7 * n + (displayGates addr + 39) = 7 * n + (13 + 7) + displayGates addr + 19 := by omega
    rw [gates, List.append_assoc] at answers
    obtain ⟨todo, goes⟩ := waitDpy_goesOn n (ps := clear1bppSeq s.cfg ++ []) (ws := [d3, v2]) (n := 13) (e := e)
      (d := d) (d' := d2) (s := { s with resp := none }) (cs := .deasserted)
      (evs := startEvents1bpp s.cfg x y w h mode addr bg fg d1 v)
      (j := waiting1bpp s.cfg x y w h mode addr bg fg v) ready.idle rfl busy
      (by simpa [waiting1bpp, Job.take, Job.start] using below) true
    rw [script_clear1bpp (s := { s with resp := none }) (n := 0) rfl rfl, script_zero, List.append_nil] at goes
    refine ⟨n, _, dpy1bpp_toWait ready x y w h mode addr bg fg answers, ?_, ready.idle, rfl⟩
    simpa [finish, State.put, State.ended, Ret.value, waiting1bpp, Job.start, Job.take, ready.idle, startEvents1bpp]
      using goes
  · have ends := script_clear1bpp (ps := []) (s := { s with seq := .idle }) (n := 0) (ws := []) (cs := .deasserted)
      (evs := readRegEvents s.cfg s.cfg.regDpyStatus d2 0) (e := e) (j := { j with dpyPolls := 0 }) fresh onTime d3 v2
    rw [List.append_nil, script_zero] at ends
    rw [step_scripted running left answers,
      script_waitDpy (s := { s with seq := .idle }) (n := 13) (ws := [d3, v2]) fresh]
    refine congrArg Host.Outcome.next (ends.trans ?_)
    simp [finish, State.put, Job.take]

end Sys2Proof.Machine
end

section
/-!
PROOFS. The refresh family (44_refresh R180 to R186): a wait and a load as one piece, and the operations that display
after it.
-/

namespace Sys2Proof.Machine

open Sys2Proof

/-! ### The parts that the operations share (R180) -/

/-- The gates of the display at the end of a refresh, with `hold` from the default frame buffer. -/
theorem displayGates_heldAddr (hold : Bool) (t : DWord) :
    displayGates (heldAddr hold t) = if hold then 8 else 10 := by
  cases hold <;> rfl

section

variable {ps : List Prim} {j : Job} {s : State} {n : Nat} {ws : List Word} {e : Tape} {cs : CsLatch} {evs : List Event}

/-- The first two parts of R180, the wait and the load. -/
theorem script_waitLoad (fresh : j.Fresh) (info : LoadImageInfo) (a : AreaImageInfo) (d0 d1 r1 d2 r2 : Word)
    (tolerated : readBackAddr s.cfg r1 r2 = info.target ∨ s.cfg.tmaMismatchFault = false) :
    runPrims (waitDpySeq s.cfg false ++ (hostAreaWriteSeq s.cfg info a ++ ps)) j
        (s.put (Env.script s.cfg (n + info.src.length + 44) ([d0, 0, d1, r1, d2, r2] ++ ws) e) cs evs)
      = runPrims ps ((j.take r1).take r2)
          ((s.noteMismatch (decide (readBackAddr s.cfg r1 r2 ≠ info.target))).put (Env.script s.cfg n ws e) .deasserted
            (evs ++ (readRegEvents s.cfg s.cfg.regDpyStatus d0 0 ++ loadEvents s.cfg info a d1 r1 d2 r2))) := by
  rw [← List.append_assoc evs]
  exact (script_waitFirst (n := n + info.src.length + 37) fresh false d0).trans
    (script_load fresh.gate info a d1 r1 d2 r2 (noTargetFault tolerated))

/-- R180 in full: the wait, the load and a display command. -/
theorem script_waitLoadDisplay (fresh : j.Fresh) (info : LoadImageInfo) (a : AreaImageInfo) (x y w h mode : Word)
    (addr : Option DWord) (d0 d1 r1 d2 r2 : Word)
    (tolerated : readBackAddr s.cfg r1 r2 = info.target ∨ s.cfg.tmaMismatchFault = false) :
    runPrims (waitDpySeq s.cfg false ++ hostAreaWriteSeq s.cfg info a ++ displaySeq s.cfg x y w h mode addr ++ ps) j
        (s.put (Env.script s.cfg (n + displayGates addr + info.src.length + 44)
          ([d0, 0, d1, r1, d2, r2] ++ ws) e) cs evs)
      = runPrims ps ((j.take r1).take r2)
          ((s.noteMismatch (decide (readBackAddr s.cfg r1 r2 ≠ info.target))).put (Env.script s.cfg n ws e) .deasserted
            (evs ++ (readRegEvents s.cfg s.cfg.regDpyStatus d0 0 ++ loadEvents s.cfg info a d1 r1 d2 r2 ++
              displayEvents s.cfg x y w h mode addr))) := by
  rw [List.append_assoc, List.append_assoc, ← List.append_assoc evs]
  exact (script_waitLoad fresh info a d0 d1 r1 d2 r2 tolerated).trans
    (script_display (s := s.noteMismatch _) ((fresh.take r1).take r2).gate x y w h mode addr)

/-- R181: the wait, the load with the divided area and `DPY_1BPP` with the undivided one. -/
theorem script_refresh1bpp (fresh : j.Fresh) (src : List Word) (x y w h mode : Word) (target : DWord) (hold : Bool)
    (d0 d1 r1 d2 r2 d3 v d4 d5 v2 : Word)
    (tolerated : readBackAddr s.cfg r1 r2 = target ∨ s.cfg.tmaMismatchFault = false) :
    runPrims (refresh1bppSeq s.cfg src x y w h mode target hold ++ ps) j
        (s.put (Env.script s.cfg (n + displayGates (heldAddr hold target) + 39 + src.length + 44)
          ([d0, 0, d1, r1, d2, r2, d3, v, d4, 0, d5, v2] ++ ws) e) cs evs)
      = runPrims ps ((((j.take r1).take r2).take v).take v2)
          ((s.noteMismatch (decide (readBackAddr s.cfg r1 r2 ≠ target))).put (Env.script s.cfg n ws e) .deasserted
            (evs ++ (readRegEvents s.cfg s.cfg.regDpyStatus d0 0 ++
              loadEvents s.cfg (refreshInfo s.cfg s.cfg.pixfmt1bppCarrier src target) (area1bpp s.cfg x y w h)
                d1 r1 d2 r2 ++
              mono1bppEvents s.cfg x y w h mode (heldAddr hold target) s.cfg.bg1bpp s.cfg.fg1bpp
                d3 v d4 0 d5 v2))) := by
  rw [refresh1bppSeq, List.append_assoc, List.append_assoc, ← List.append_assoc evs]
  exact (script_waitLoad (ws := [d3, v, d4, 0, d5, v2] ++ ws) fresh
      (refreshInfo s.cfg s.cfg.pixfmt1bppCarrier src target) (area1bpp s.cfg x y w h) d0 d1 r1 d2 r2 tolerated).trans
    (script_dpy1bpp (s := s.noteMismatch _) ((fresh.take r1).take r2) x y w h mode (heldAddr hold target)
      s.cfg.bg1bpp s.cfg.fg1bpp d3 v d4 d5 v2)

/-- R185: the wait and `DPY_1BPP`, no load between them. -/
theorem script_multiFrame (fresh : j.Fresh) (a2 x y w h : Word) (target : DWord) (hold : Bool)
    (d0 d1 v d2 d3 v2 : Word) :
    runPrims (multiFrameSeq s.cfg a2 x y w h target hold ++ ps) j
        (s.put (Env.script s.cfg (n + displayGates (heldAddr hold target) + 39 + 7)
          ([d0, 0, d1, v, d2, 0, d3, v2] ++ ws) e) cs evs)
      = runPrims ps ((j.take v).take v2) (s.put (Env.script s.cfg n ws e) .deasserted
          (evs ++ (readRegEvents s.cfg s.cfg.regDpyStatus d0 0 ++
            mono1bppEvents s.cfg x y w h a2 (heldAddr hold target) s.cfg.bg1bpp s.cfg.fg1bpp d1 v d2 0 d3 v2))) := by
  rw [multiFrameSeq, List.append_assoc, ← List.append_assoc evs]
  exact (script_waitFirst fresh false d0).trans
    (script_dpy1bpp fresh x y w h a2 (heldAddr hold target) s.cfg.bg1bpp s.cfg.fg1bpp d1 v d2 d3 v2)

end

/-- A refresh of bit depth 2, 4 or 8 against a script (R180): all that differs is the request itself and its tag. -/
theorem openRequest_refresh {s : State} (ready : s.Accepts) {src : List Word} (full : src ≠ []) (op : Instr)
    (tag : BitVec 4) (x y w h : Word) (target : DWord) (hold : Bool) {d0 d1 r1 d2 r2 : Word} {e : Tape}
    (answers : s.env =
      Env.script s.cfg (src.length + 44 + (if hold then 8 else 10)) [d0, 0, d1, r1, d2, r2] e)
    (tolerated : readBackAddr s.cfg r1 r2 = target ∨ s.cfg.tmaMismatchFault = false) :
    s.openRequest [emptyCheck src.length] (Job.start op .nothing (refreshSeq s.cfg tag src x y w h target hold)) =
      .next (s.endedAtTarget target r1 r2 e
        (readRegEvents s.cfg s.cfg.regDpyStatus d0 0 ++
          loadEvents s.cfg (refreshInfo s.cfg tag src target) { x := x, y := y, w := w, h := h } d1 r1 d2 r2 ++
          displayEvents s.cfg x y w h s.cfg.modeGc16 (heldAddr hold target)) .nothing) := by
  have gates : src.length + 44 + (if hold then 8 else 10) =
      0 + displayGates (heldAddr hold target) + src.length + 44 := by
    rw [displayGates_heldAddr]
    omega
  rw [gates] at answers
  exact openRequest_setsTarget ready (emptyCheck_full full) answers
    (script_waitLoadDisplay (n := 0) (ws := []) (start_fresh _ _ _) (refreshInfo s.cfg tag src target) _ x y w h
      s.cfg.modeGc16 (heldAddr hold target) d0 d1 r1 d2 r2 tolerated)

/-- Settles O45: the three operations run R180 with the tag of their depth (`openRequest_refresh`). -/
theorem refreshCompletes : Obligations.RefreshCompletes := by
  intro s e src x y w h target hold d0 d1 r1 d2 r2 ready full answers tolerated i tag depth
  rcases depth with ⟨rfl, rfl⟩ | ⟨rfl, rfl⟩ | ⟨rfl, rfl⟩
  · exact openRequest_refresh ready full _ s.cfg.pixfmt.bpp2 x y w h target hold answers tolerated
  · exact openRequest_refresh ready full _ s.cfg.pixfmt.bpp4 x y w h target hold answers tolerated
  · exact openRequest_refresh ready full _ s.cfg.pixfmt.bpp8 x y w h target hold answers tolerated

/-! ### The 1bpp operations (R181, R185) -/

/-- Settles O46: the sequence of R181 takes exactly the script's ready samples and words (`script_refresh1bpp`). -/
theorem refresh1bppCompletes : Obligations.Refresh1bppCompletes := by
  intro s e src x y w h mode target hold d0 d1 r1 d2 r2 d3 v d4 d5 v2 ready full answers tolerated
  have gates : src.length + 83 + (if hold then 8 else 10) =
      0 + displayGates (heldAddr hold target) + 39 + src.length + 44 := by
    rw [displayGates_heldAddr]
    omega
  rw [gates] at answers
  exact openRequest_setsTarget ready (emptyCheck_full full) answers
    (script_refresh1bpp (n := 0) (ws := []) (start_fresh _ _ _) src x y w h mode target hold d0 d1 r1 d2 r2 d3 v d4 d5
      v2 tolerated)

/-- Settles O47: with `S.A2` written, the sequence of R185 in the mode it holds takes exactly the script's ready samples
and words (`script_multiFrame`). -/
theorem multiFrameCompletes : Obligations.MultiFrameCompletes := by
  intro s e a2 x y w h target hold d0 d1 v d2 d3 v2 ready written answers
  have gates : 46 + (if hold then 8 else 10) = 0 + displayGates (heldAddr hold target) + 39 + 7 := by
    rw [displayGates_heldAddr]
    omega
  rw [gates] at answers
  simp only [exec, execMultiFrame1bpp, written]
  exact openRequest_scripted ready rfl answers
    (script_multiFrame (n := 0) (ws := []) (start_fresh _ _ _) a2 x y w h target hold d0 d1 v d2 d3 v2)

/-! ### The whole panel (R186) -/

theorem clearBuf_length (width height : Word) :
    (clearBuf width height).length = (width.toNat * 4 + 15) / 16 * height.toNat := List.length_replicate

/-- The buffer of a panel that has pixels is not empty. -/
theorem clearBuf_ne_nil {width height : Word} (wide : width ≠ 0) (high : height ≠ 0) : clearBuf width height ≠ [] := by
  have columns : width.toNat ≠ 0 := BitVec.toNat_ne_iff_ne.2 wide
  have rows : height.toNat ≠ 0 := BitVec.toNat_ne_iff_ne.2 high
  have rowWords : (width.toNat * 4 + 15) / 16 ≠ 0 := by omega
  exact List.ne_nil_of_length_pos (Nat.pos_of_ne_zero (by rw [clearBuf_length]; exact Nat.mul_ne_zero rowWords rows))

/-- Settles O48: R180 (`script_waitLoadDisplay`) with the buffer of the whole panel, which is not empty
(`clearBuf_ne_nil`) and has as many words as the script has gates for its load (`clearBuf_length`). -/
theorem clearRefreshCompletes : Obligations.ClearRefreshCompletes := by
  intro s e di target d0 d1 r1 d2 r2 ready written wide high answers tolerated
  have gates : (di[0].toNat * 4 + 15) / 16 * di[1].toNat + 52 =
      0 + displayGates none + (clearBuf di[0] di[1]).length + 44 := by
    rw [clearBuf_length, displayGates]
    omega
  rw [gates] at answers
  simp only [exec, execClearRefresh, written]
  exact openRequest_setsTarget ready (emptyCheck_full (clearBuf_ne_nil wide high)) answers
    (script_waitLoadDisplay (n := 0) (ws := []) (start_fresh _ _ _)
      (refreshInfo s.cfg s.cfg.pixfmt.bpp4 (clearBuf di[0] di[1]) target) _ 0 0 di[0] di[1] s.cfg.modeGc16 none
      d0 d1 r1 d2 r2 tolerated)

end Sys2Proof.Machine
end

section
/-!
PROOFS. The device lifecycle (45_lifecycle R195 to R206): the operations of one sequence, against a script and on the
fake backend, and the device-info block.
-/

namespace Sys2Proof.Machine

open Sys2Proof

/-! ### The reset pulse and the release (R195, R206) -/

@[simp] theorem observe_rst (c : Cfg) (env : Env) (l : Level) : env.observe c (.rst l) = env := by cases env <;> rfl

@[simp] theorem observe_sleep (c : Cfg) (env : Env) (d : Nat) : env.observe c (.sleep d) = env := by cases env <;> rfl

@[simp] theorem observe_closed (c : Cfg) (env : Env) : env.observe c .closed = env := by cases env <;> rfl

/-- `s` after the six events of `RESET`. -/
def State.pulsed (s : State) : State := { s with rst := .driven .high, trace := s.trace ++ resetEvents }

theorem runPrims_resetSeq (ps : List Prim) (j : Job) (s : State) :
    runPrims (resetSeq ++ ps) j s = runPrims ps j s.pulsed := by
  simp [resetSeq, runPrims_cons, perform, State.setRst, State.emit, State.pulsed, resetEvents, Config.tRstLong,
    Config.tRstShort]

/-- Settles O50: an open idle session runs the six pin and sleep events and ends (`runPrims_resetSeq`). -/
theorem resetCompletes : Obligations.ResetCompletes := by
  intro s ready
  refine (openRequest_runs ready rfl _).trans (congrArg Host.Outcome.next ?_)
  refine (runPrims_resetSeq [] _ _).trans ?_
  simp [finish, State.pulsed, resetEvents, Ret.value, Job.start, ready.idle]

/-- Settles O59: the sequence is the release alone, which closes the session and leaves the pins undriven. -/
theorem shutdownCompletes : Obligations.ShutdownCompletes := by
  intro s ready
  refine (openRequest_runs ready rfl _).trans (congrArg Host.Outcome.next ?_)
  simp [Job.start, shutdownSeq, runPrims_cons, perform, State.releaseTransport, State.emit, finish, Ret.value,
    ready.idle]

/-! ### Operations of a few frames (R196 to R199, R203, R204) -/

/-- Settles O51: each is the sequence of one command frame. -/
theorem modeCommandsComplete : Obligations.ModeCommandsComplete := fun s _ ready answers =>
  ⟨openRequest_scripted ready rfl answers (script_sendCmd rfl s.cfg.cmdSysRun),
    openRequest_scripted ready rfl answers (script_sendCmd rfl s.cfg.cmdStandby),
    openRequest_scripted ready rfl answers (script_sendCmd rfl s.cfg.cmdSleep)⟩

section

variable {ps : List Prim} {j : Job} {s : State} {n : Nat} {ws : List Word} {e : Tape} {cs : CsLatch} {evs : List Event}

theorem script_getSysInfo (fresh : j.gatePolls = 0) (d : Word) {di : List Word} (whole : di.length = 20) :
    runPrims (getSysInfoSeq s.cfg ++ ps) j (s.put (Env.script s.cfg (n + 24) (d :: (di ++ ws)) e) cs evs)
      = runPrims ps (j.takes di) (s.put (Env.script s.cfg n ws e) .deasserted
          (evs ++ (cmdFrame s.cfg s.cfg.cmdGetDevInfo ++ readFrame s.cfg d di))) := by
  have gates : n + 24 = n + di.length + 2 + 2 := by omega
  rw [getSysInfoSeq, List.append_assoc, gates, script_sendCmd fresh, Config.sysinfoWords, ← whole,
    script_readBuf fresh, List.append_assoc]

theorem script_readVcom (fresh : j.gatePolls = 0) (d v : Word) :
    runPrims (readVcomSeq s.cfg ++ ps) j (s.put (Env.script s.cfg (n + 7) (d :: v :: ws) e) cs evs)
      = runPrims ps (j.take v) (s.put (Env.script s.cfg n ws e) .deasserted (evs ++ readVcomEvents s.cfg d v)) := by
  rw [readVcomSeq, List.append_assoc, List.append_assoc, script_sendCmd fresh, script_sendData fresh,
    script_readData fresh]
  simp [readVcomEvents, Config.vcomSubGet]

theorem script_writeVcom (fresh : j.gatePolls = 0) (v : Word) :
    runPrims (writeVcomSeq s.cfg v ++ ps) j (s.put (Env.script s.cfg (n + 6) ws e) cs evs)
      = runPrims ps j (s.put (Env.script s.cfg n ws e) .deasserted (evs ++ writeVcomEvents s.cfg v)) := by
  rw [writeVcomSeq, List.append_assoc, List.append_assoc, script_sendCmd fresh, script_sendData fresh,
    script_sendData fresh]
  simp [writeVcomEvents, Config.vcomSubSet]

end

/-- Settles O52: the sequence takes the script's gates and words (`script_getSysInfo`), and the words it keeps are the
20 after the dummy. -/
theorem sysInfoCompletes : Obligations.SysInfoCompletes := fun _ _ d ws ready whole answers =>
  openRequest_scripted ready rfl (by simpa using answers) (script_getSysInfo (n := 0) (ws := []) rfl d whole)

/-- Settles O53: `script_readVcom` and `script_writeVcom`. -/
theorem vcomCompletes : Obligations.VcomCompletes := fun _ _ d v ready =>
  ⟨fun answers => openRequest_scripted ready rfl answers (script_readVcom rfl d v),
    fun answers => openRequest_scripted ready rfl answers (script_writeVcom rfl v)⟩

/-! ### Registers and VCOM on the fake backend (R204(b), 92 D29) -/

/-- What `WRITE_VCOM v` leaves in the backend. -/
def Backend.vcomWrote (c : Cfg) (b : Backend) (v : Word) : Backend :=
  { b with
    regs := if c.cmdVcom = c.cmdRegWr then regsWrite b.regs Config.vcomSubSet.toNat v else b.regs
    vcom := v
    cmd := some c.cmdVcom, args := [Config.vcomSubSet, v], scope := none }

/-- What `READ_VCOM` leaves in the backend. -/
def Backend.vcomWasRead (c : Cfg) (b : Backend) : Backend :=
  { b with cmd := some c.cmdVcom, args := [Config.vcomSubGet], scope := none }

section

variable {ps : List Prim} {j : Job} {s : State} {b : Backend} {cs : CsLatch} {evs : List Event}

/-- `WRITE_VCOM` against the backend. -/
theorem fake_writeVcom (fresh : j.Fresh) (v : Word) :
    runPrims (writeVcomSeq s.cfg v ++ ps) j (s.put (.fake b) cs evs)
      = runPrims ps j (s.put (.fake (b.vcomWrote s.cfg v)) .deasserted (evs ++ writeVcomEvents s.cfg v)) := by
  rw [writeVcomSeq, List.append_assoc, List.append_assoc, fake_sendCmd fresh, fake_sendData fresh, fake_sendData fresh,
    saw_command, saw_data, saw_data]
  simp [writeVcomEvents, backendWrite, Backend.vcomWrote, Config.vcomSubSet]

/-- `READ_VCOM` against the backend, which takes it for no register read. -/
theorem fake_readVcom (fresh : j.Fresh) (distinct : s.cfg.cmdVcom ≠ s.cfg.cmdRegRd) :
    runPrims (readVcomSeq s.cfg ++ ps) j (s.put (.fake b) cs evs)
      = runPrims ps (j.take b.vcom) (s.put (.fake (b.vcomWasRead s.cfg)) .deasserted
          (evs ++ readVcomEvents s.cfg 0 b.vcom)) := by
  have get : Config.vcomSubGet = 0#16 := rfl
  have data : backendData s.cfg { b with cmd := some s.cfg.cmdVcom, args := [0#16], scope := none } 0
      = some b.vcom := by
    simp [backendData, distinct, get]
  rw [readVcomSeq, get, List.append_assoc, List.append_assoc, fake_sendCmd fresh, fake_sendData fresh,
    saw_command, saw_data]
  simp only [List.nil_append, backendWrite]
  rw [fake_readData fresh data, saw_read]
  simp [readVcomEvents, backendFrame, data, distinct, Backend.vcomWasRead, get]

end

/-- The register map after `WRITE_REG`: the addressed register holds the word, every other what it held. -/
theorem regsRead_wrote {c : Cfg} {b : Backend} (canonical : regsWf b.regs = true) (a v a' : Word) :
    regsRead (b.wrote c a v).regs a'.toNat = if a' = a then v else regsRead b.regs a'.toNat := by
  rw [Backend.wrote, regsRead_write canonical]
  simp only [BitVec.toNat_inj]

/-- Settles O34: `WRITE_REG` leaves the backend with the one register written (`regsRead_wrote`), and `WRITE_VCOM` with
the VCOM that `READ_VCOM` then reads (`fake_writeVcom`, `fake_readVcom`). -/
theorem backendRemembersWrites : Obligations.BackendRemembersWrites := by
  refine ⟨fun s b a v ready answers canonical => ?_, fun s b v ready answers distinct => ?_⟩
  · exact ⟨_, _, exec_writeReg_fake ready answers a v, rfl, regsRead_wrote canonical a v, rfl, rfl⟩
  · have writes : exec (.writeVcom v) s =
        .next (s.endedOnFake (b.vcomWrote s.cfg v) (writeVcomEvents s.cfg v) .nothing) :=
      openRequest_fake ready rfl answers (fake_writeVcom (start_fresh _ _ _) v)
    have reads := openRequest_fake (endedOnFake_accepts ready (b.vcomWrote s.cfg v) (writeVcomEvents s.cfg v) .nothing)
      (rs := []) (op := .readVcom) (ret := .word) rfl rfl (fake_readVcom (start_fresh _ _ _) distinct)
    exact ⟨_, _, writes, reads, rfl⟩

/-! ### The device-info block (R200 to R202) -/

theorem infoOf_toList (di : Vector Word 20) : infoOf di.toList = some di := by
  simp [infoOf, Vector.toArray_toList]

theorem sessionReg_info {s : State} {di : Vector Word 20} (written : s.di = some di) (i : Fin 20) :
    s.sessionReg i.castSucc = .ok (.word di[i]) := by
  simp [State.sessionReg, written]

theorem sessionReg_mode {s : State} {v : Word} (written : s.a2 = some v) : s.sessionReg 20 = .ok (.word v) := by
  simp [State.sessionReg, written]

theorem join32_eq_shiftLeft_or (h l : Word) : join32 h l = (h.zeroExtend 32 <<< 16) ||| l.zeroExtend 32 := by
  rw [join32, BitVec.append_def, BitVec.shiftLeftZeroExtend_eq, BitVec.setWidth'_eq]

/-- Settles O58: the host reads each word at its position (`sessionReg_info`), and the two halves of the address do not
overlap (`join32_eq_shiftLeft_or`). -/
theorem deviceInfoDecode : Obligations.DeviceInfoDecode := by
  refine ⟨fun s di written => ⟨sessionReg_info written, ?_⟩, fun di => ⟨rfl, rfl, fun k => ?_⟩⟩
  · simp only [State.targetAddress, written, targetAddressOf, join32_eq_shiftLeft_or]
  · fin_cases k <;> exact ⟨rfl, rfl⟩

/-- A word is its two bytes. -/
theorem eq_ofBytes_iff {w : Word} {a b : Byte} : w = ofBytes a b ↔ hiByte w = a ∧ loByte w = b := by
  constructor
  · rintro rfl
    exact ⟨hiByte_ofBytes a b, loByte_ofBytes a b⟩
  · rintro ⟨rfl, rfl⟩
    exact (ofBytes_wordBytes w).symm

theorem takeWhile_eq_cons_iff {p : Byte → Bool} {a x : Byte} {l xs : List Byte} :
    (a :: l).takeWhile p = x :: xs ↔ p x = true ∧ a = x ∧ l.takeWhile p = xs := by
  rw [List.takeWhile_cons]
  by_cases same : a = x
  · subst same
    split <;> simp [*]
  · split <;> simp [same]

/-- The version string read high byte first is "M641" where the first two words hold it and the third begins with a
NUL. -/
theorem lutString_eq_m641_iff (di : Vector Word 20) :
    versionString .highFirst (lutWords di) = Config.m641 ↔
      di[12] = 0x4D36 ∧ di[13] = 0x3431 ∧ di[14].extractLsb' 8 8 = 0 := by
  have m6 : (0x4D36 : Word) = ofBytes 0x4D 0x36 := rfl
  have m41 : (0x3431 : Word) = ofBytes 0x34 0x31 := rfl
  rw [m6, m41, eq_ofBytes_iff, eq_ofBytes_iff]
  simp [versionString, lutWords, charsOf, Config.m641, takeWhile_eq_cons_iff, hiByte, and_assoc]

theorem fastMode_eq_four_iff (c : Cfg) (di : Vector Word 20) :
    fastMode c di = 4 ↔ versionString c.versionCharOrder (lutWords di) = Config.m641 := by
  unfold fastMode
  split <;> simp [*, Config.a2M641, Config.a2Other]

theorem perform_storeInfo {j : Job} {s : State} {di : Vector Word 20} (whole : j.got = di.toList) :
    perform .storeInfo j s = .go j { s with di := some di, a2 := some (fastMode s.cfg di) } := by
  rw [perform, storeDeviceInfo, whole, infoOf_toList]

/-- Settles O57: the mode is chosen by the LUT version string, whose bytes are those of its words
(`lutString_eq_m641_iff`); `storeInfo` stores it (`perform_storeInfo`) and the host reads it (`sessionReg_mode`). -/
theorem fastModeResolution : Obligations.FastModeResolution := by
  refine fun c di => ⟨(fastMode_eq_four_iff c di).mpr, fun other => if_neg other, fun highFirst => ?_, ?_,
    fun _ _ => sessionReg_mode⟩
  · rw [fastMode_eq_four_iff, highFirst, lutString_eq_m641_iff]
  · rintro j s rfl whole
    exact perform_storeInfo whole

end Sys2Proof.Machine
end

section
/-!
PROOFS. How a run in the open session stops, how a fault of `INITIALIZE` leaves it closed, and what `RESET` and
`INITIALIZE` leave unchanged (45 R195, R205, R207; 10_state R27).
-/

namespace Sys2Proof.Machine

open Sys2Proof

/-! ### How a run in the open session stops -/

/-- How a run of the operation `op` from `s`, in the open session, stops in `t`: with a result, in a wait, or in a
fault, which in `INITIALIZE` closes the session with the event `CLOSE`. -/
inductive StopsIn (op : Instr) (s t : State) : Prop where
  | ended (v : Value) (idle : t.seq = .idle) (result : t.resp = some (.ok v))
  | waits (j : Job) (running : t.seq = .running j) (sound : j.Sound t)
  | faulted (f : Fault) (idle : t.seq = .idle) (result : t.resp = some (.fault f))
      (closes : opensSession op = true → t.isOpen = false ∧ ∃ mid, t.trace = s.trace ++ mid ++ [.closed])

theorem StopsIn.since {op : Instr} {s s' t : State} (h : StopsIn op s' t) (earlier : s.trace <+: s'.trace) :
    StopsIn op s t := by
  cases h with
  | ended v idle result => exact .ended v idle result
  | waits j running sound => exact .waits j running sound
  | faulted f idle result closes =>
    refine .faulted f idle result fun opens => ?_
    obtain ⟨closed, mid, grows⟩ := closes opens
    obtain ⟨before, begins⟩ := earlier
    exact ⟨closed, before ++ mid, by rw [grows, ← begins]; simp⟩

/-- A fault taken in the open session closes it where the job says so. -/
theorem raiseFault_stops {op : Instr} (f : Fault) {j : Job} {s : State} (closes : j.closeOnFault = opensSession op)
    (session : s.isOpen = true) : StopsIn op s (raiseFault f j s) := by
  refine .faulted f rfl rfl fun opens => ?_
  obtain ⟨-, -, -, stays⟩ | ⟨closed, grows, -⟩ := raiseFault_session f j s
  · exact absurd ⟨closes.trans opens, session⟩ stays
  · exact ⟨closed, [], by simpa using grows⟩

/-- What a failed poll puts back in front of the rest may follow a wait. -/
theorem hold_mayFollow (op : Instr) {p : Prim} {j j' : Job} {s s' : State} {again : List Prim}
    (held : perform p j s = .hold again j' s') : again.all (Prim.mayFollowWait op) = true := by
  obtain ⟨-, rfl⟩ | ⟨defer, -, rfl⟩ := hold_again held
  · rfl
  · exact waitDpySeq_mayFollow op s.cfg defer

/-- One primitive performed, the operation is the same and its rest is as sound as it was. -/
theorem perform_sound {p : Prim} {ps : List Prim} {j : Job} {s : State}
    (sound : ({ j with todo := p :: ps } : Job).Sound s) :
    (perform p j s).job.op = j.op ∧ ({ (perform p j s).job with todo := ps } : Job).Sound (perform p j s).state := by
  obtain ⟨session, silent, closes, follow⟩ := sound
  rw [List.all_cons, Bool.and_eq_true] at follow
  obtain ⟨first, rest⟩ := follow
  obtain ⟨sameOp, sameClose, sameSession, sameResp, -⟩ :=
    perform_inside p j s (by rintro rfl; cases first) (by rintro rfl; cases first)
  refine ⟨sameOp, sameSession.trans session, sameResp.trans silent, ?_, ?_⟩
  · exact sameClose.trans (closes.trans (congrArg opensSession sameOp.symm))
  · simpa only [sameOp] using rest

/-- A run whose rest is sound stops with a result, in a sound wait, or in a fault. -/
theorem runPrims_stops (ps : List Prim) {j : Job} {s : State} (sound : ({ j with todo := ps } : Job).Sound s) :
    StopsIn j.op s (runPrims ps j s) := by
  induction ps generalizing j s with
  | nil => exact .ended _ rfl rfl
  | cons p ps ih =>
    obtain ⟨sameOp, sound'⟩ := perform_sound sound
    obtain ⟨-, -, grows⟩ := perform_keeps p j s
    rw [runPrims_cons, ← sameOp]
    cases flow : perform p j s with
    | go j' s' =>
      rw [flow] at sound' grows
      exact (ih sound').since grows
    | hold again j' s' =>
      rw [flow] at sound'
      obtain ⟨session, silent, closes, rest⟩ := sound'
      refine .waits _ rfl ⟨session, silent, closes, ?_⟩
      rw [List.all_append, hold_mayFollow _ flow]
      exact rest
    | done j' s' => exact .ended _ rfl rfl
    | raise f j' s' =>
      rw [flow] at sound' grows
      exact (raiseFault_stops f sound'.closes sound'.session).since grows

theorem StopsIn.jobSound {op : Instr} {s t : State} (h : StopsIn op s t) : t.JobSound := by
  cases h with
  | ended v idle result => exact fun j running => by cases idle.symm.trans running
  | waits j running sound =>
    intro j' running'
    cases running.symm.trans running'
    exact sound
  | faulted f idle result closes => exact fun j running => by cases idle.symm.trans running

/-- In `INITIALIZE` a fault leaves the session closed, and `CLOSE` is the last event. -/
theorem StopsIn.releases {op : Instr} {s t : State} {f : Fault} (h : StopsIn op s t) (opens : opensSession op = true)
    (faulted : t.resp = some (.fault f)) :
    t.seq = .idle ∧ t.isOpen = false ∧ ∃ mid, t.trace = s.trace ++ mid ++ [.closed] := by
  cases h with
  | ended v idle result => cases result.symm.trans faulted
  | waits j running sound => cases sound.silent.symm.trans faulted
  | faulted f' idle result closes => exact ⟨idle, closes opens⟩

/-! ### `INITIALIZE`, executed (R205) -/

/-- `s` after the open and the reset of an `INITIALIZE`, its open granted. -/
def State.atBringUp (s : State) : State :=
  { s.askOpen.2 with
    isOpen := true, cs := .deasserted, rst := .driven .high, resp := none
    trace := s.trace ++ [.opened s.askOpen.1] ++ resetEvents }

/-- `INITIALIZE` after its open and its reset. -/
def bringUpSeq (c : Cfg) (v : Word) : List Prim := (initializeSeq c v).drop 7

/-- The pins at the claim: chip-select deasserted, the reset pin undriven. -/
theorem perform_claim_granted (j : Job) {s : State} (granted : s.askOpen.1 = true) :
    perform .claim j s = .go j { s.askOpen.2 with isOpen := true, cs := .deasserted, rst := .undriven } := by
  obtain ⟨-, e⟩ | ⟨denied, -⟩ := claimTransport_cases j s
  · exact e
  · cases granted.symm.trans denied

theorem initializeSeq_eq (c : Cfg) (v : Word) : initializeSeq c v = .claim :: (resetSeq ++ bringUpSeq c v) := rfl

section

variable {s : State} (v : Word) (idle : s.seq = .idle) (closed : s.isOpen = false)

include idle closed

/-- An idle block in no session accepts `INITIALIZE`. -/
theorem exec_initialize_accepted :
    exec (.initializeDevice v) s =
      .next (runPrims (initializeSeq s.cfg v) (jobOf s (.initializeDevice v)) { s with resp := none }) := by
  simp only [exec, execInitializeDevice, State.request, State.busyCheck, State.closedCheck, firstRefusal, idle, closed]
  rfl

/-- A granted open: the reset follows, and then the bring-up. -/
theorem exec_initialize_granted (granted : s.askOpen.1 = true) :
    exec (.initializeDevice v) s =
      .next (runPrims (bringUpSeq s.cfg v) (jobOf s (.initializeDevice v)) s.atBringUp) := by
  rw [exec_initialize_accepted v idle closed, initializeSeq_eq,
    runPrims_go (perform_claim_granted _ (s := { s with resp := none }) granted), runPrims_resetSeq]
  rfl

/-- A failed open: the fault, in the session that was not opened. -/
theorem exec_initialize_denied (denied : s.askOpen.1 = false) :
    exec (.initializeDevice v) s = .next { s.askOpen.2 with resp := some (.fault .transportOpenFailed) } := by
  rw [exec_initialize_accepted v idle closed, initializeSeq_eq, runPrims_cons, perform]
  obtain ⟨granted, -⟩ | ⟨-, e⟩ := claimTransport_cases (jobOf s (.initializeDevice v)) { s with resp := none }
  · cases granted.symm.trans denied
  · rw [e]
    simp [raiseFault, closed, State.askOpen, State.emit, idle]

end

/-- What executing `INITIALIZE` answers: the refusal, the fault of a failed open, or the run of the bring-up in the
session opened. -/
theorem exec_initialize_cases {v : Word} {s t : State} (answers : exec (.initializeDevice v) s = .next t) :
    (∃ r, t = s.refuse r) ∨
    (s.askOpen.1 = false ∧ t = { s.askOpen.2 with resp := some (.fault .transportOpenFailed) }) ∨
    (s.askOpen.1 = true ∧ t = runPrims (bringUpSeq s.cfg v) (jobOf s (.initializeDevice v)) s.atBringUp) := by
  obtain ⟨r, e⟩ | ⟨w, b, other, -⟩ | ⟨idle, closed, -⟩ := exec_cases (.initializeDevice v) s
  · cases e.symm.trans answers
    exact .inl ⟨r, rfl⟩
  · cases other
  · cases asked : s.askOpen.1 with
    | false =>
      cases (exec_initialize_denied v idle closed asked).symm.trans answers
      exact .inr (.inl ⟨rfl, rfl⟩)
    | true =>
      cases (exec_initialize_granted v idle closed asked).symm.trans answers
      exact .inr (.inr ⟨rfl, rfl⟩)

theorem bringUp_sound (s : State) (v : Word) :
    ({ jobOf s (.initializeDevice v) with todo := bringUpSeq s.cfg v } : Job).Sound s.atBringUp :=
  ⟨rfl, rfl, rfl, initializeSeq_mayFollow s.cfg v⟩

/-- How the bring-up of an `INITIALIZE` whose open was granted stops. -/
theorem bringUp_stops (s : State) (v : Word) :
    StopsIn (.initializeDevice v) s.atBringUp
      (runPrims (bringUpSeq s.cfg v) (jobOf s (.initializeDevice v)) s.atBringUp) :=
  runPrims_stops _ (bringUp_sound s v)

theorem step_stops {s t : State} {j : Job} (sound : s.JobSound) (running : s.seq = .running j)
    (answers : step s = .next t) : StopsIn j.op s t := by
  obtain ⟨session, silent, closes, rest⟩ := sound j running
  cases (step_running running).symm.trans answers
  exact (runPrims_stops j.todo (s := { s with seq := .idle }) ⟨session, silent, closes, rest⟩).since List.prefix_rfl

/-- Settles O56: a run of `INITIALIZE` in the session it opened, the first (`bringUp_stops`) or one after a wait
(`step_stops`), stops in a fault only with the session closed; a failed open leaves it closed. -/
theorem initializeFaultReleases : Obligations.InitializeFaultReleases := by
  refine ⟨fun s t v f idle closed answers faulted => ?_, fun s t j v f sound running isInit answers faulted => ?_⟩
  · obtain ⟨r, rfl⟩ | ⟨denied, rfl⟩ | ⟨granted, rfl⟩ := exec_initialize_cases answers
    · cases faulted
    · exact ⟨idle, closed, .inl (by simp [denied])⟩
    · obtain ⟨isIdle, isClosed, mid, grows⟩ := (bringUp_stops s v).releases rfl faulted
      refine ⟨isIdle, isClosed, .inr ⟨resetEvents ++ mid, ?_⟩⟩
      rw [grows, State.atBringUp, granted]
      simp
  · exact (step_stops sound running answers).releases (by rw [isInit]; rfl) faulted

/-! ### What `RESET` and `INITIALIZE` leave unchanged (R195(f), R205) -/

/-- `t` has the reset pin's latch and the mismatch flag of `s`. -/
structure PinAndFlagKept (s t : State) : Prop where
  rst : t.rst = s.rst
  flag : t.tmaMismatch = s.tmaMismatch

theorem perform_keepsPinAndFlag {op : Instr} {p : Prim} (j : Job) (s : State) (setsNone : setsTarget op = false)
    (follows : p.mayFollowWait op = true) : PinAndFlagKept s (perform p j s).state := by
  have inSession : p.mayFollowWait .gate = true → PinAndFlagKept s (perform p j s).state := fun follows => by
    obtain ⟨-, -, -, rst, flag⟩ := perform_keepsSession j s rfl follows
    exact ⟨rst, flag rfl⟩
  cases p with
  | claim | release | rst | sleep => cases follows
  | tmaCheck t => cases setsNone.symm.trans follows
  | storeInfo => exact ⟨storeDeviceInfo_rst j s, storeDeviceInfo_tmaMismatch j s⟩
  | endIfVcom v => simp only [perform]; split <;> exact ⟨rfl, rfl⟩
  | _ => exact inSession rfl

theorem runPrims_keepsPinAndFlag {op : Instr} (ps : List Prim) (j : Job) (s : State) (setsNone : setsTarget op = false)
    (follow : ps.all (Prim.mayFollowWait op) = true) : PinAndFlagKept s (runPrims ps j s) := by
  induction ps generalizing j s with
  | nil => exact ⟨rfl, rfl⟩
  | cons p ps ih =>
    rw [List.all_cons, Bool.and_eq_true] at follow
    obtain ⟨first, rest⟩ := follow
    obtain ⟨rst, flag⟩ := perform_keepsPinAndFlag j s setsNone first
    rw [runPrims_cons]
    generalize perform p j s = flow at rst flag
    cases flow with
    | go j' s' =>
      obtain ⟨rst', flag'⟩ := ih j' s' rest
      exact ⟨rst'.trans rst, flag'.trans flag⟩
    | hold again j' s' => exact ⟨rst, flag⟩
    | done j' s' => exact ⟨rst, flag⟩
    | raise f j' s' => exact ⟨(raiseFault_rst f j' s').trans rst, (raiseFault_tmaMismatch f j' s').trans flag⟩

theorem exec_reset_frame {s t : State} (answers : exec .reset s = .next t) :
    { t with rst := s.rst, trace := s.trace, resp := s.resp } = s := by
  obtain ⟨r, e⟩ | ⟨w, b, other, -⟩ | ⟨idle, -, e⟩ := exec_cases .reset s
  · cases e.symm.trans answers
    rfl
  · cases other
  · cases e.symm.trans answers
    rw [show bodyOf s .reset = resetSeq ++ [] from rfl, runPrims_resetSeq]
    simp [finish, State.pulsed, ← idle]

/-- Settles O19: `RESET` runs its pulse alone (`exec_reset_frame`), and past the reset `INITIALIZE` is made of what may
follow a wait, which leaves the latch and the flag as they are (`runPrims_keepsPinAndFlag`). -/
theorem lifecycleInstrFrame : Obligations.LifecycleInstrFrame := by
  refine ⟨fun s t => exec_reset_frame, fun v s t answers => ?_, fun v s t j sound running isInit answers => ?_⟩
  · obtain ⟨r, rfl⟩ | ⟨-, rfl⟩ | ⟨-, rfl⟩ := exec_initialize_cases answers
    · exact ⟨rfl, rfl, rfl, List.prefix_rfl⟩
    · exact ⟨rfl, rfl, rfl, ⟨_, (askOpen_trace s).symm⟩⟩
    · obtain ⟨cfg, port, grows⟩ := runPrims_frame (bringUpSeq s.cfg v) (jobOf s (.initializeDevice v)) s.atBringUp
      obtain ⟨-, flag⟩ := runPrims_keepsPinAndFlag _ (jobOf s (.initializeDevice v)) s.atBringUp rfl
        (initializeSeq_mayFollow s.cfg v)
      exact ⟨cfg, port, flag, .trans ⟨_, (List.append_assoc _ _ _).symm⟩ grows⟩
  · obtain ⟨-, -, -, rest⟩ := sound j running
    cases (step_running running).symm.trans answers
    rw [isInit] at rest
    obtain ⟨cfg, port, grows⟩ := runPrims_frame j.todo j { s with seq := .idle }
    obtain ⟨rst, flag⟩ := runPrims_keepsPinAndFlag j.todo j { s with seq := .idle } rfl rest
    exact ⟨cfg, port, flag, grows, rst⟩

end Sys2Proof.Machine
end

section
/-!
PROOFS. What every step keeps whole: the fake backend's register map (92 D29; log 3), the session registers, and the
operation that waits (45 R205, 10_state R27; log 4).
-/

namespace Sys2Proof.Machine

open Sys2Proof

/-! ### The backend's register map -/

theorem level_canonical {env : Env} (canonical : env.canonical = true) (c : Cfg) (h : List Event) :
    (env.level c h).2.canonical = true := by
  unfold Env.level
  split
  · split <;> rfl
  · exact canonical

theorem byte_canonical {env : Env} (canonical : env.canonical = true) (c : Cfg) (h : List Event) :
    (env.byte c h).2.canonical = true := by
  unfold Env.byte
  split
  · split <;> rfl
  · split <;> exact canonical

theorem opens_canonical {env : Env} (canonical : env.canonical = true) (h : List Event) :
    (env.opens h).2.canonical = true := by
  unfold Env.opens
  split
  · split <;> rfl
  · exact canonical

theorem rxWord_canonical {s : State} (canonical : s.env.canonical = true) : s.rxWord.2.env.canonical = true := by
  have first := observe_canonical s.cfg (byte_canonical canonical s.cfg s.trace) (.rx s.rxByte.1)
  exact observe_canonical _ (byte_canonical first _ _) _

theorem backOff_canonical {s : State} (canonical : s.env.canonical = true) : s.backOff.env.canonical = true := by
  unfold State.backOff
  split
  · exact observe_canonical _ canonical _
  · exact canonical

theorem perform_canonical (p : Prim) (j : Job) {s : State} (canonical : s.env.canonical = true) :
    (perform p j s).state.env.canonical = true := by
  have sampled : s.sample.2.env.canonical = true := observe_canonical _ (level_canonical canonical _ _) _
  have asked : s.askOpen.2.env.canonical = true := observe_canonical _ (opens_canonical canonical _) _
  cases p with
  | gate =>
    obtain ⟨-, e⟩ | ⟨-, -, e⟩ | ⟨-, -, e⟩ := pollGate_cases j s <;> simp only [perform, e, Flow.state]
    · exact sampled
    · split
      · exact observe_canonical _ sampled _
      · exact sampled
    · exact backOff_canonical sampled
  | dpyTest defer =>
    obtain ⟨-, e⟩ | ⟨-, -, -, e⟩ | ⟨-, -, -, e⟩ | ⟨-, -, e⟩ := pollDisplay_cases defer j s <;> rw [perform, e]
    case inr.inr.inr => exact backOff_canonical canonical
    all_goals exact canonical
  | tmaCheck t =>
    obtain ⟨r, d, -, -, ⟨e, -⟩ | ⟨e, -⟩⟩ := checkTma_cases t j s <;> rw [perform, e] <;> exact canonical
  | claim => obtain ⟨-, e⟩ | ⟨-, e⟩ := claimTransport_cases j s <;> rw [perform, e] <;> exact asked
  | raiseLate | endIfVcom v => simp only [perform]; split <;> exact canonical
  | storeInfo => rwa [perform, Flow.state, storeDeviceInfo_env]
  | rxDummy | rxWord => exact rxWord_canonical canonical
  | tx w | txMasked on => exact observe_canonical _ (observe_canonical _ canonical _) _
  | cs on | rst l | sleep d | release => exact observe_canonical _ canonical _

theorem raiseFault_canonical (f : Fault) (j : Job) {s : State} (canonical : s.env.canonical = true) :
    (raiseFault f j s).env.canonical = true := by
  obtain ⟨-, -, same, -⟩ | ⟨-, -, saw, -⟩ := raiseFault_session f j s
  · rwa [same]
  · rw [saw]
    exact observe_canonical _ canonical _

/-- A run keeps the backend's register map canonical. -/
theorem runPrims_canonical (ps : List Prim) (j : Job) {s : State} (canonical : s.env.canonical = true) :
    (runPrims ps j s).env.canonical = true :=
  runPrims_keeps (R := fun a b => a.env.canonical = true → b.env.canonical = true) (fun h h' => h' ∘ h)
    (fun p j _ => perform_canonical p j) (fun _ _ => id) (fun _ _ => id) (fun f j _ => raiseFault_canonical f j) ps j s
    canonical

/-! ### The session registers -/

theorem storeDeviceInfo_whole (j : Job) {s : State} (whole : s.snapshotWhole) :
    (storeDeviceInfo j s).snapshotWhole := by
  unfold storeDeviceInfo
  split
  · rfl
  · exact whole

theorem perform_whole (p : Prim) (j : Job) {s : State} (whole : s.snapshotWhole) :
    (perform p j s).state.snapshotWhole := by
  have kept : p.mayFollowWait (.setTma 0) = true → (perform p j s).state.snapshotWhole := fun follows => by
    obtain ⟨-, di, a2, -⟩ := perform_keepsSession (op := .setTma 0) j s rfl follows
    rwa [State.snapshotWhole, di, a2]
  cases p with
  | storeInfo => exact storeDeviceInfo_whole j whole
  | claim => obtain ⟨-, e⟩ | ⟨-, e⟩ := claimTransport_cases j s <;> rw [perform, e] <;> exact whole
  | endIfVcom v => simp only [perform]; split <;> exact whole
  | rst | sleep | release => exact whole
  | _ => exact kept rfl

/-- A run keeps the session registers written both or neither. -/
theorem runPrims_whole (ps : List Prim) (j : Job) {s : State} (whole : s.snapshotWhole) :
    (runPrims ps j s).snapshotWhole :=
  runPrims_keeps (R := fun a b => a.snapshotWhole → b.snapshotWhole) (fun h h' => h' ∘ h)
    (fun p j _ => perform_whole p j) (fun _ _ => id) (fun _ _ => id)
    (fun f j s whole => by rwa [State.snapshotWhole, raiseFault_di, raiseFault_a2]) ps j s whole

/-! ### Instructions and steps -/

theorem State.JobSound.of_idle {s : State} (idle : s.seq = .idle) : s.JobSound :=
  fun _ running => by cases idle.symm.trans running

/-- An idle block that executes an instruction ends it or waits soundly. -/
theorem exec_jobSound {i : Instr} {s t : State} (answers : exec i s = .next t) (idle : s.seq = .idle) : t.JobSound := by
  obtain ⟨r, e⟩ | ⟨w, b, -, -, e⟩ | ⟨-, session, e⟩ := exec_cases i s <;> cases e.symm.trans answers
  · exact .of_idle idle
  · exact .of_idle idle
  · have whileOpen (isOrdinary : ordinary i = true) :
        (runPrims (bodyOf s i) (jobOf s i) { s with resp := none }).JobSound := by
      rw [opensSession_of_ordinary isOrdinary] at session
      exact (runPrims_stops _ (j := jobOf s i) (s := { s with resp := none })
        ⟨session, rfl, rfl, bodyOf_mayFollow s i isOrdinary⟩).jobSound
    cases i with
    | reset | shutdown => exact .of_idle rfl
    | initializeDevice v =>
      obtain ⟨r, refused⟩ | ⟨-, denied⟩ | ⟨-, granted⟩ := exec_initialize_cases answers
      · exact .of_idle (by rw [refused]; exact idle)
      · exact .of_idle (by rw [denied]; exact idle)
      · rw [granted]
        exact (bringUp_stops s v).jobSound
    | _ => exact whileOpen rfl

theorem exec_canonical {i : Instr} {s t : State} (answers : exec i s = .next t) (canonical : s.env.canonical = true) :
    t.env.canonical = true := by
  obtain ⟨r, e⟩ | ⟨w, b, -, -, e⟩ | ⟨-, -, e⟩ := exec_cases i s <;> cases e.symm.trans answers
  · exact canonical
  · exact canonical
  · exact runPrims_canonical _ _ canonical

theorem exec_whole {i : Instr} {s t : State} (answers : exec i s = .next t) (whole : s.snapshotWhole) :
    t.snapshotWhole := by
  obtain ⟨r, e⟩ | ⟨w, b, -, -, e⟩ | ⟨-, -, e⟩ := exec_cases i s <;> cases e.symm.trans answers
  · exact whole
  · exact whole
  · exact runPrims_whole _ _ whole

/-- Settles O14: every run keeps the map canonical (`runPrims_canonical`) and the registers whole (`runPrims_whole`),
and it leaves the block idle or in a sound wait, in a step that executes (`exec_jobSound`) and in one that goes on
(`step_stops`). -/
theorem stepKeepsDataWhole : Obligations.StepKeepsDataWhole := by
  intro s t answers
  obtain ⟨idle, rfl⟩ | ⟨rest, idle, rfl⟩ | ⟨rest, i, idle, e⟩ | ⟨j, running, rfl⟩ := step_cases answers
  · exact ⟨id, id, id⟩
  · exact ⟨id, id, fun _ => .of_idle idle⟩
  · exact ⟨fun canonical => exec_canonical e canonical, fun whole => exec_whole e whole, fun _ => exec_jobSound e idle⟩
  · exact ⟨fun canonical => runPrims_canonical _ _ canonical, fun whole => runPrims_whole _ _ whole,
      fun sound => (step_stops sound running answers).jobSound⟩

end Sys2Proof.Machine
end

section
/-!
PROOFS. `INITIALIZE` against a script (45 R205, 70 R247, R261): the whole bring-up, sequence by sequence.
-/

namespace Sys2Proof.Machine

open Sys2Proof

section

variable {ps : List Prim} {j : Job} {s : State} {n : Nat} {ws : List Word} {e : Tape} {evs : List Event}

theorem bringUpSeq_eq (c : Cfg) (v : Word) :
    bringUpSeq c v = sendCmdSeq c.cmdSysRun ++ (getSysInfoSeq c ++ .storeInfo ::
      (writeRegSeq c c.regPackedCtrl c.valPackedEnable ++ (initWaitSeq c ++ (readVcomSeq c ++ .endIfVcom v ::
        (writeVcomSeq c v ++ []))))) := by
  simp [bringUpSeq, initializeSeq, resetSeq]

/-- The wait of either kind: a gate, or the display wait on an idle engine. -/
theorem script_initWait (fresh : j.Fresh) (d : Word) :
    runPrims (initWaitSeq s.cfg ++ ps) j
        (s.put (Env.script s.cfg (n + initWaitGates s.cfg) (initWaitWords s.cfg d ++ ws) e) .deasserted evs)
      = runPrims ps j (s.put (Env.script s.cfg n ws e) .deasserted (evs ++ initWaitEvents s.cfg d)) := by
  unfold initWaitSeq initWaitGates initWaitWords initWaitEvents
  cases s.cfg.initWaitKind with
  | gate => exact script_gate fresh.gate
  | displayReady => exact script_waitFirst fresh false d

/-- `s` with the device information `di` and its fast mode in the session registers. -/
def State.informed (s : State) (di : Vector Word 20) : State :=
  { s with di := some di, a2 := some (fastMode s.cfg di) }

/-- The device information, read and stored. -/
theorem script_info (fresh : j.gatePolls = 0) (nothingYet : j.got = []) (d : Word) (di : Vector Word 20) :
    runPrims (getSysInfoSeq s.cfg ++ .storeInfo :: ps) j
        (s.put (Env.script s.cfg (n + 24) (d :: (di.toList ++ ws)) e) .deasserted evs)
      = runPrims ps (j.takes di.toList) ((s.informed di).put (Env.script s.cfg n ws e) .deasserted
          (evs ++ (cmdFrame s.cfg s.cfg.cmdGetDevInfo ++ readFrame s.cfg d di.toList))) := by
  rw [script_getSysInfo fresh d di.length_toList]
  exact runPrims_go (perform_storeInfo (by simp [Job.takes, nothingYet]))

/-- The VCOM written where it is not the target, and the end. -/
theorem script_setVcom (fresh : j.gatePolls = 0) (target cur : Word) :
    runPrims (.endIfVcom target :: (writeVcomSeq s.cfg target ++ [])) (j.take cur)
        (s.put (Env.script s.cfg (if cur = target then 0 else 6) [] e) .deasserted evs)
      = finish (j.take cur) (s.put (.tape e) .deasserted
          (evs ++ if cur = target then [] else writeVcomEvents s.cfg target)) := by
  by_cases same : cur = target
  · simp [runPrims_cons, perform, take_last, same, script_zero]
  · have differs : (j.take cur).last ≠ target := by rwa [take_last]
    rw [runPrims_go (p := .endIfVcom target) (if_neg differs), if_neg same, if_neg same]
    rw [script_writeVcom (n := 0) (j := j.take cur) fresh, runPrims_nil, script_zero]

/-- The bring-up, from the reset to the end of `INITIALIZE`. -/
theorem script_bringUp (fresh : j.Fresh) (nothingYet : j.got = []) (target d1 d2 d3 cur : Word) (di : Vector Word 20) :
    runPrims (bringUpSeq s.cfg target) j
        (s.put (Env.script s.cfg (39 + initWaitGates s.cfg + if cur = target then 0 else 6)
          (d1 :: di.toList ++ initWaitWords s.cfg d2 ++ [d3, cur]) e) .deasserted (evs ++ resetEvents))
      = finish ((j.takes di.toList).take cur) ((s.informed di).put (.tape e) .deasserted
          (evs ++ initEvents s.cfg target d1 di.toList d2 d3 cur)) := by
  have gates : 39 + initWaitGates s.cfg + (if cur = target then 0 else 6) =
      (if cur = target then 0 else 6) + 7 + initWaitGates s.cfg + 6 + 24 + 2 := by omega
  have taken := fresh.takes di.toList
  rw [bringUpSeq_eq, gates, script_sendCmd fresh.gate]
  simp only [List.cons_append, List.append_assoc]
  rw [script_info fresh.gate nothingYet]
  generalize told : s.informed di = s'
  have sameCfg : s.cfg = s'.cfg := by rw [← told]; rfl
  rw [sameCfg, script_writeReg taken.gate, script_initWait taken, script_readVcom taken.gate,
    script_setVcom taken.gate]
  simp [initEvents]

end

theorem askOpen_scripted {s : State} {n : Nat} {ws : List Word} {e : Tape}
    (answers : s.env = Env.script s.cfg n ws { e with opens := true :: e.opens }) :
    s.askOpen = (true, { s with trace := s.trace ++ [.opened true], env := Env.script s.cfg n ws e }) := by
  simp [State.askOpen, answers, Env.script, Env.opens, State.emit, Env.observe]

/-- The session a scripted `INITIALIZE` has open after its reset. -/
def State.openAfterReset (s : State) : State := { s with isOpen := true, rst := .driven .high, resp := none }

theorem atBringUp_scripted {s : State} {n : Nat} {ws : List Word} {e : Tape}
    (answers : s.env = Env.script s.cfg n ws { e with opens := true :: e.opens }) :
    s.atBringUp = s.openAfterReset.put (Env.script s.cfg n ws e) .deasserted ([.opened true] ++ resetEvents) := by
  rw [State.atBringUp, askOpen_scripted answers, List.append_assoc]
  rfl

/-- The result of `INITIALIZE` is the device information, not the VCOM received after it. -/
theorem initialize_value (s : State) (v cur : Word) (di : Vector Word 20) :
    (jobOf s (.initializeDevice v)).ret.value ((jobOf s (.initializeDevice v)).got ++ di.toList ++ [cur]) =
      .words di.toList := congrArg Value.words (List.take_left' di.length_toList)

/-- Settles O54: the open is granted (`exec_initialize_granted`), the sequence after the reset takes exactly the
script's ready samples and words (`script_bringUp`), and the claim leaves the pins as R25 says
(`perform_claim_granted`). -/
theorem initializeCompletes : Obligations.InitializeCompletes := by
  refine ⟨fun s e target d1 d2 d3 cur di idle closed answers => ?_, fun s j granted => ?_⟩
  · have granted : s.askOpen.1 = true := by rw [askOpen_scripted answers]
    have sameCfg : s.openAfterReset.cfg = s.cfg := rfl
    have run := script_bringUp (s := s.openAfterReset) (j := jobOf s (.initializeDevice target)) (e := e)
      (evs := [.opened true]) ⟨rfl, rfl, rfl⟩ rfl target d1 d2 d3 cur di
    rw [sameCfg] at run
    rw [exec_initialize_granted target idle closed granted, atBringUp_scripted answers, run]
    simp only [finish, State.put, State.informed, State.openAfterReset, State.ended, idle, Job.takes, Job.take,
      initialize_value, List.singleton_append]
  · have granted : s.askOpen.1 = true := granted
    rw [perform_claim_granted j granted]
    simp [State.askOpen, State.emit, show (s.env.opens s.trace).1 = true from granted]

end Sys2Proof.Machine
end

section
/-!
PROOFS. The exceptions (60_exceptions): refusals before any event, the failed open of `INITIALIZE`, the wait loops that
go on, and the target mismatch that is a fault.
-/

namespace Sys2Proof.Machine

open Sys2Proof

/-! ### Refusals (R226, R228) -/

/-- Every instruction but `WIDTH_WORDS` and `INITIALIZE` is a request of an open session. -/
theorem exec_request_cases (i : Instr) (s : State) :
    (∃ w b, i = .widthWords w b) ∨ (∃ v, i = .initializeDevice v) ∨ ∃ rs j, exec i s = s.openRequest rs j := by
  cases i with
  | widthWords w b => exact .inl ⟨w, b, rfl⟩
  | initializeDevice v => exact .inr (.inl ⟨v, rfl⟩)
  | multiFrame1bpp x y w h t hold =>
    refine .inr (.inr ?_)
    simp only [exec, execMultiFrame1bpp]
    cases s.a2 <;> exact ⟨_, _, rfl⟩
  | clearRefresh t =>
    refine .inr (.inr ?_)
    simp only [exec, execClearRefresh]
    cases s.di <;> exact ⟨_, _, rfl⟩
  | _ => exact .inr (.inr ⟨_, _, rfl⟩)

theorem openRequest_closed {s : State} (idle : s.seq = .idle) (closed : s.isOpen = false) (rs : List (Option Refusal))
    (j : Job) : s.openRequest rs j = .next (s.refuse .notOpen) := by
  simp [State.openRequest, State.request, State.busyCheck, State.openCheck, firstRefusal, idle, closed]

/-- Settles O20: what is refused is a request of an open session (`exec_request_cases`), and the first thing such a
request asks of an idle block is that the session is open. -/
theorem closedSessionRefuses : Obligations.ClosedSessionRefuses := by
  intro i s idle closed notInit notWidth
  obtain ⟨w, b, width⟩ | ⟨v, init⟩ | ⟨rs, j, e⟩ := exec_request_cases i s
  · exact absurd width (notWidth w b)
  · exact absurd init (notInit v)
  · exact e.trans (openRequest_closed idle closed rs j)

theorem request_busy {s : State} {running : Job} (busy : s.seq = .running running) (rs : List (Option Refusal))
    (j : Job) : s.request rs j = .next (s.refuse .busy) := by
  simp [State.request, State.busyCheck, firstRefusal, busy]

theorem answer_busy {s : State} {running : Job} (busy : s.seq = .running running) (v : Value) :
    s.answer v = .next (s.refuse .busy) := by
  simp [State.answer, State.busyCheck, busy]

theorem exec_busy (i : Instr) {s : State} {running : Job} (busy : s.seq = .running running) :
    exec i s = .next (s.refuse .busy) := by
  obtain ⟨w, b, rfl⟩ | ⟨v, rfl⟩ | ⟨rs, j, e⟩ := exec_request_cases i s
  · exact answer_busy busy _
  · exact request_busy busy _ _
  · exact e.trans (request_busy busy _ j)

theorem exec_initialize_open {s : State} (v : Word) (ready : s.Accepts) :
    exec (.initializeDevice v) s = .next (s.refuse .alreadyOpen) := by
  simp [exec, execInitializeDevice, State.request, State.busyCheck, State.closedCheck, firstRefusal, ready.idle,
    ready.session]

/-- Settles O21: `Busy` is the first test of every meaning (`exec_busy`), and `INITIALIZE` tests next that no session is
open. -/
theorem busyAndAlreadyOpenRefuse : Obligations.BusyAndAlreadyOpenRefuse :=
  ⟨fun i _ _ busy => exec_busy i busy, fun v _ ready => exec_initialize_open v ready⟩

/-- An open idle session refuses a request whose buffer has no words. -/
theorem openRequest_empty {s : State} (ready : s.Accepts) {n : Nat} (empty : n = 0) (j : Job) :
    s.openRequest [emptyCheck n] j = .next (s.refuse .emptyBuffer) := by
  rw [emptyCheck, if_pos empty]
  exact openRequest_refuses ready _ _ j

theorem exec_clearRefresh_written {s : State} {di : Vector Word 20} (t : DWord) (written : s.di = some di) :
    exec (.clearRefresh t) s = s.openRequest [emptyCheck (clearBuf di[0] di[1]).length]
      (Job.start (.clearRefresh t) .nothing (clearRefreshSeq s.cfg di[0] di[1] t)) := by
  simp only [exec, execClearRefresh, written]

/-- The buffer of a panel without pixels is empty. -/
theorem clearBuf_length_eq_zero {width height : Word} (pixelless : width = 0 ∨ height = 0) :
    (clearBuf width height).length = 0 := by
  rw [clearBuf_length]
  rcases pixelless with rfl | rfl
  · exact Nat.zero_mul _
  · exact Nat.mul_zero _

/-- Settles O22: each is a request whose only test of its own is that of its buffer or count (`openRequest_empty`). -/
theorem emptyBufferRefused : Obligations.EmptyBufferRefused := by
  intro s ready i empty
  rcases empty with rfl | rfl | ⟨code, rfl⟩ | ⟨info, a, bpp, packed, noWords, rfl⟩ | ⟨x, y, w, h, m, t, k, rfl⟩ |
    ⟨x, y, w, h, t, k, rfl⟩ | ⟨x, y, w, h, t, k, rfl⟩ | ⟨x, y, w, h, t, k, rfl⟩ | ⟨t, di, written, pixelless, rfl⟩
  · exact openRequest_empty ready rfl _
  · exact openRequest_empty ready rfl _
  · exact openRequest_empty ready rfl _
  · exact openRequest_empty ready (congrArg List.length noWords) _
  · exact openRequest_empty ready rfl _
  · exact openRequest_empty ready rfl _
  · exact openRequest_empty ready rfl _
  · exact openRequest_empty ready rfl _
  · exact (exec_clearRefresh_written t written).trans (openRequest_empty ready (clearBuf_length_eq_zero pixelless) _)

/-! ### The failed open (R222) -/

@[simp] theorem observe_opened (c : Cfg) (env : Env) (ok : Bool) : env.observe c (.opened ok) = env := by
  cases env <;> rfl

/-- Settles O55: the open comes first, and its refusal is the fault (`exec_initialize_denied`). -/
theorem initializeOpenFails : Obligations.InitializeOpenFails := by
  intro s target idle closed denied
  have refused : s.askOpen.1 = false := denied
  rw [exec_initialize_denied target idle closed refused]
  simp [State.askOpen, State.emit, denied]

/-! ### The wait loops below their bound (R224) -/

/-- Writing back what the sequencer and the environment hold changes nothing. -/
theorem eq_with_seq_env {s : State} {q : Seq} {env : Env} (now : s.seq = q) (answers : s.env = env) :
    s = { s with seq := q, env := env } := by
  rw [← now, ← answers]

/-- An operation that waits at a gate keeps its place through any number of failed polls below its bound. -/
theorem run_gate (n : Nat) {s : State} {j : Job} {rest : List Prim} {l : Level} {e : Tape}
    (running : s.seq = .running j) (left : j.todo = .gate :: rest)
    (below : ∀ b : ℕ+, s.cfg.pollBound = some b → j.gatePolls + n < (b : Nat)) (notReady : l ≠ s.cfg.readyLevel)
    (answers : s.env = .tape { e with rdy := List.replicate n l ++ e.rdy }) :
    Host.Core.run Sys2Proof.core n s = .next { s with
      seq := .running { j with gatePolls := j.gatePolls + n }
      trace := s.trace ++ (List.replicate n (failedPoll s.cfg l)).flatten
      env := .tape e } := by
  induction n generalizing s j with
  | zero =>
    refine congrArg Host.Outcome.next ((eq_with_seq_env running answers).trans ?_)
    simp
  | succ n ih =>
    have failed := tape_gate_failed (ps := rest) (j := j) (s := { s with seq := .idle })
      (e := { e with rdy := List.replicate n l ++ e.rdy }) notReady
      (fun b bound => by have := below b bound; omega) answers
    have goes := ih (s := { s with
        seq := .running { j with gatePolls := j.gatePolls + 1, todo := .gate :: rest }
        trace := s.trace ++ failedPoll s.cfg l
        env := .tape { e with rdy := List.replicate n l ++ e.rdy } }) rfl rfl
      (fun b bound => by have := below b bound; simp only; omega) notReady rfl
    refine (run_next Sys2Proof.core n ((step_atGate running left).trans (congrArg Host.Outcome.next failed))).trans
      (goes.trans ?_)
    simp [List.replicate_succ, ← left, Nat.add_assoc, Nat.add_comm 1 n]

/-- An operation that waits for the display keeps its place through any number of busy polls below its bound. -/
theorem run_waitDpy (n : Nat) {s : State} {j : Job} {defer : Bool} {rest : List Prim} {d v : Word} {e : Tape}
    (running : s.seq = .running j) (left : j.todo = waitDpySeq s.cfg defer ++ rest) (fresh : j.gatePolls = 0)
    (outside : s.cs = .deasserted) (below : ∀ b : ℕ+, s.cfg.pollBound = some b → j.dpyPolls + n < (b : Nat))
    (busy : v ≠ 0) (answers : s.env = Env.script s.cfg (7 * n) ((List.replicate n [d, v]).flatten) e) :
    Host.Core.run Sys2Proof.core n s = .next { s with
      seq := .running { j with dpyPolls := j.dpyPolls + n }
      trace := s.trace ++ (List.replicate n (busyPoll s.cfg d v)).flatten
      env := .tape e } := by
  induction n generalizing s j with
  | zero =>
    refine congrArg Host.Outcome.next ((eq_with_seq_env running (answers.trans (script_zero s.cfg e))).trans ?_)
    simp
  | succ n ih =>
    have waits := script_busyPoll (ps := rest) (s := { s with seq := .idle }) (n := 7 * n) (e := e) (cs := s.cs)
      (evs := []) (ws := (List.replicate n [d, v]).flatten) busy fresh
      (fun b bound => by have := below b bound; omega) defer d
    have goes := ih (s := { s with
        seq := .running { j with dpyPolls := j.dpyPolls + 1, todo := waitDpySeq s.cfg defer ++ rest }
        trace := s.trace ++ busyPoll s.cfg d v
        env := Env.script s.cfg (7 * n) (List.replicate n [d, v]).flatten e }) rfl rfl fresh outside
      (fun b bound => by have := below b bound; simp only; omega) rfl
    refine (run_next Sys2Proof.core n ((step_scripted running left answers).trans
      (congrArg Host.Outcome.next waits))).trans ?_
    simpa [State.put, List.replicate_succ, ← left, outside, Nat.add_assoc, Nat.add_comm 1 n] using goes

/-- Settles O27: every failed poll below the bound is one step that leaves the operation where it was (`run_gate`,
`run_waitDpy`). -/
theorem waitLoopsRunForever : Obligations.WaitLoopsRunForever :=
  ⟨fun n _ _ _ _ _ => run_gate n, fun n _ _ _ _ _ _ _ => run_waitDpy n⟩

/-! ### The target mismatch with the fault configured (R223, 42 R151) -/

section

variable {ps : List Prim} {j : Job} {s : State} {n : Nat} {ws : List Word} {e : Tape} {cs : CsLatch} {evs : List Event}

/-- The comparison of `SET_TMA` on another address than the one written, the fault configured. -/
theorem runPrims_tmaCheck_differs {t : DWord} {r1 r2 : Word} (differs : readBackAddr s.cfg r1 r2 ≠ t)
    (configured : s.cfg.tmaMismatchFault = true) :
    runPrims (.tmaCheck t :: ps) ((j.take r1).take r2) s =
      raiseFault (.tmaMismatch t (readBackAddr s.cfg r1 r2)) ((j.take r1).take r2) s.flagged := by
  have back : readBackOf s.cfg.tmaOrder r1 r2 = readBackAddr s.cfg r1 r2 := rfl
  have mismatch : tmaDiffers t (readBackAddr s.cfg r1 r2) = true := bne_iff_ne.2 differs
  simp [runPrims_cons, perform, checkTma, Job.take, back, mismatch, configured, State.noteMismatch, State.flagged]

/-- `SET_TMA` against a script, up to its comparison. -/
theorem script_setTma_toCheck (fresh : j.gatePolls = 0) (t : DWord) (d1 r1 d2 r2 : Word) :
    runPrims (setTmaSeq s.cfg t ++ ps) j (s.put (Env.script s.cfg (n + 26) ([d1, r1, d2, r2] ++ ws) e) cs evs)
      = runPrims (.tmaCheck t :: ps) ((j.take r1).take r2)
          (s.put (Env.script s.cfg n ws e) .deasserted (evs ++ setTmaEvents s.cfg t d1 r1 d2 r2)) := by
  have readOne : (j.take r1).gatePolls = 0 := fresh
  cases order : s.cfg.tmaOrder <;>
    simp only [setTmaSeq, order, List.append_assoc, script_writeReg fresh, script_readReg fresh,
      script_readReg readOne, List.cons_append, List.nil_append] <;>
    simp [setTmaEvents, order, pairHigh]

/-- A sequence that begins with `SET_TMA` ends there when the target differs and the fault is configured. -/
theorem script_targetFault (fresh : j.gatePolls = 0) (t : DWord) (d1 r1 d2 r2 : Word)
    (differs : readBackAddr s.cfg r1 r2 ≠ t) (configured : s.cfg.tmaMismatchFault = true) :
    runPrims (setTmaSeq s.cfg t ++ ps) j (s.put (Env.script s.cfg 26 [d1, r1, d2, r2] e) cs evs)
      = s.flagged.faulted ((j.take r1).take r2) e .deasserted (evs ++ setTmaEvents s.cfg t d1 r1 d2 r2)
          (.tmaMismatch t (readBackAddr s.cfg r1 r2)) := by
  rw [← raiseFault_put, ← script_zero s.cfg e]
  exact (script_setTma_toCheck (n := 0) (ws := []) fresh t d1 r1 d2 r2).trans
    (runPrims_tmaCheck_differs (s := s.put _ _ _) differs configured)

end

/-- The load begins with `SET_TMA` (R155). -/
theorem setTmaSeq_prefix_hostAreaWriteSeq (c : Cfg) (info : LoadImageInfo) (a : AreaImageInfo) :
    setTmaSeq c info.target <+: hostAreaWriteSeq c info a :=
  ((List.prefix_append _ _).trans (List.prefix_append _ _)).trans (List.prefix_append _ _)

/-- A wait and a load begin with the wait and `SET_TMA` (R180, R181, R186). -/
theorem waitTarget_prefix (c : Cfg) (info : LoadImageInfo) (a : AreaImageInfo) (ps : List Prim) :
    waitDpySeq c false ++ setTmaSeq c info.target <+: waitDpySeq c false ++ hostAreaWriteSeq c info a ++ ps :=
  ((List.prefix_append_right_inj _).2 (setTmaSeq_prefix_hostAreaWriteSeq c info a)).trans (List.prefix_append _ _)

/-- `s` after an operation that the fault of a target mismatch ended: it wrote `t` and read `back`. -/
def State.endedByTarget (s : State) (t back : DWord) (e : Tape) (evs : List Event) : State :=
  { s with
    cs := .deasserted, tmaMismatch := true, trace := s.trace ++ evs, env := .tape e
    resp := some (.fault (.tmaMismatch t back)) }

section

variable {s : State} {e : Tape} {t : DWord} {d0 d1 r1 d2 r2 : Word} {rs : List (Option Refusal)} {op : Instr}
  {ret : Ret} {body : List Prim}
  (ready : s.Accepts) (differs : readBackAddr s.cfg r1 r2 ≠ t) (configured : s.cfg.tmaMismatchFault = true)
  (accepted : firstRefusal rs = none)

include ready differs configured accepted

/-- A request whose sequence begins with `SET_TMA`. -/
theorem openRequest_targetFault (answers : s.env = Env.script s.cfg 26 [d1, r1, d2, r2] e)
    (begins : setTmaSeq s.cfg t <+: body) :
    s.openRequest rs (Job.start op ret body) =
      .next (s.endedByTarget t (readBackAddr s.cfg r1 r2) e (setTmaEvents s.cfg t d1 r1 d2 r2)) := by
  obtain ⟨ps, split⟩ := begins
  rw [openRequest_begins ready accepted op ret body answers]
  nth_rw 1 [← split]
  refine congrArg Host.Outcome.next ((script_targetFault (s := { s with resp := none }) rfl t d1 r1 d2 r2 differs
    configured).trans ?_)
  simp [State.faulted, State.flagged, State.endedByTarget, Job.take, Job.start, ready.idle]

/-- A request whose sequence begins with the display wait and `SET_TMA`, the engine idle. -/
theorem openRequest_waitTargetFault (answers : s.env = Env.script s.cfg 33 [d0, 0, d1, r1, d2, r2] e)
    (begins : waitDpySeq s.cfg false ++ setTmaSeq s.cfg t <+: body) :
    s.openRequest rs (Job.start op ret body) =
      .next (s.endedByTarget t (readBackAddr s.cfg r1 r2) e
        (readRegEvents s.cfg s.cfg.regDpyStatus d0 0 ++ setTmaEvents s.cfg t d1 r1 d2 r2)) := by
  obtain ⟨ps, split⟩ := begins
  rw [openRequest_begins ready accepted op ret body answers]
  nth_rw 1 [← split]
  rw [List.append_assoc]
  refine congrArg Host.Outcome.next (((script_waitFirst (s := { s with resp := none }) (n := 26)
    (ws := [d1, r1, d2, r2]) (start_fresh op ret body) false d0).trans
      (script_targetFault rfl t d1 r1 d2 r2 differs configured)).trans ?_)
  simp [State.faulted, State.flagged, State.endedByTarget, Job.take, Job.start, ready.idle]

end

/-- Settles O37: every operation that sets the target does so first, or directly after its display wait, so the fault
ends it before its load (`openRequest_targetFault`, `openRequest_waitTargetFault`). -/
theorem targetMismatchFaults : Obligations.TargetMismatchFaults := by
  intro s e t d0 d1 r1 d2 r2 ready differs configured
  simp only [List.append_nil, List.append_assoc]
  refine ⟨fun answers => ⟨?_, fun info a bpp packed full same => ?_⟩, fun answers =>
    ⟨fun src x y w h mode hold full => ?_, fun di written wide high => ?_⟩⟩
  · exact openRequest_targetFault ready differs configured rfl answers List.prefix_rfl
  · subst same
    exact openRequest_targetFault ready differs configured (emptyCheck_full full) answers
      (setTmaSeq_prefix_hostAreaWriteSeq s.cfg info a)
  · have refresh (op : Instr) (tag : BitVec 4) (a : AreaImageInfo) (ps : List Prim) :=
      openRequest_waitTargetFault (op := op) (ret := .nothing) ready differs configured (emptyCheck_full full) answers
        (waitTarget_prefix s.cfg (refreshInfo s.cfg tag src t) a ps)
    exact ⟨refresh _ _ _ _, refresh _ _ _ _, refresh _ _ _ _, refresh _ _ _ _⟩
  · exact (exec_clearRefresh_written t written).trans
      (openRequest_waitTargetFault ready differs configured (emptyCheck_full (clearBuf_ne_nil wide high)) answers
        (waitTarget_prefix s.cfg (refreshInfo s.cfg s.cfg.pixfmt.bpp4 (clearBuf di[0] di[1]) t) _ _))

end Sys2Proof.Machine
end

section
/-!
PROOFS. Reset and hazards (70_reset_and_hazards): what no step undoes, and that every operation ends where the oracle
stays ready and answers zeros.
-/

namespace Sys2Proof.Machine

open Sys2Proof

/-! ### What no step undoes (R248, 10_state R26, R28) -/

theorem exec_cfg {i : Instr} {s t : State} (answers : exec i s = .next t) : t.cfg = s.cfg := by
  obtain ⟨r, e⟩ | ⟨w, b, -, -, e⟩ | ⟨-, -, e⟩ := exec_cases i s <;> cases e.symm.trans answers
  · rfl
  · rfl
  · obtain ⟨same, -⟩ := runPrims_frame (bodyOf s i) (jobOf s i) { s with resp := none }
    exact same

theorem step_cfg_history {s t : State} (answers : step s = .next t) : t.cfg = s.cfg ∧ s.trace <+: t.trace := by
  obtain ⟨-, rfl⟩ | ⟨rest, -, rfl⟩ | ⟨rest, i, -, e⟩ | ⟨j, -, rfl⟩ := step_cases answers
  · exact ⟨rfl, List.prefix_rfl⟩
  · exact ⟨rfl, List.prefix_rfl⟩
  · exact ⟨exec_cfg (s := { s with port := rest }) e, exec_history (s := { s with port := rest }) e⟩
  · obtain ⟨cfg, -, grows⟩ := runPrims_frame j.todo j { s with seq := .idle }
    exact ⟨cfg, grows⟩

theorem flagged_eq_self {s : State} (up : s.tmaMismatch = true) : s.flagged = s := by rw [State.flagged, ← up]

/-- The flag is sticky: a step from a state with the flag up leads where the step with the flag put up leads
(`step_flagged`), and there it is up. -/
theorem step_keepsFlag {s t : State} (answers : step s = .next t) (up : s.tmaMismatch = true) :
    t.tmaMismatch = true := by
  have alike := step_flagged s
  rw [flagged_eq_self up, answers] at alike
  exact congrArg State.tmaMismatch (Host.Outcome.next.inj alike)

/-- Settles O15: every way a step can go keeps the configuration and only adds to the history (`step_cfg_history`), and
the flag once up stays up (`step_keepsFlag`). -/
theorem stepKeepsCfgHistoryAndFlag : Obligations.StepKeepsCfgHistoryAndFlag := by
  intro s t answers
  obtain ⟨cfg, grows⟩ := step_cfg_history answers
  exact ⟨cfg, grows, step_keepsFlag answers⟩

/-! ### Every operation ends under a fair oracle (R263) -/

/-- The primitives that take a word off the wire. -/
def Prim.receives : Prim → Bool
  | .rxDummy | .rxWord => true
  | _ => false

/-- The environment stays fair for as long as the operation may need: it answers ready to every gate and zero to every
word still to be performed in `ps`, and every word received so far is zero. -/
structure State.Fair (s : State) (j : Job) (ps : List Prim) : Prop where
  zeros : ∀ w ∈ j.got, w = 0
  answers : ∃ e, s.env = Env.script s.cfg (ps.count .gate) (List.replicate (ps.countP Prim.receives) 0) e

/-- A primitive that samples nothing and receives nothing leaves the environment as fair as it was. -/
theorem State.Fair.unasked {s s' : State} {j j' : Job} {p : Prim} {ps : List Prim} (fair : s.Fair j (p :: ps))
    (asksNothing : p ≠ .gate ∧ p.receives = false) (cfg : s'.cfg = s.cfg) (zeros : ∀ w ∈ j'.got, w = 0)
    (same : ∀ n ws e, s.env = Env.script s.cfg n ws e → ∃ e', s'.env = Env.script s.cfg n ws e') : s'.Fair j' ps := by
  obtain ⟨e, answers⟩ := fair.answers
  obtain ⟨notGate, silent⟩ := asksNothing
  rw [List.count_cons_of_ne notGate, List.countP_cons_of_neg (by simp [silent])] at answers
  exact ⟨zeros, by rw [cfg]; exact same _ _ _ answers⟩

theorem State.Fair.last_eq_zero {s : State} {j : Job} {ps : List Prim} (fair : s.Fair j ps) : j.last = 0 := by
  rw [Job.last, List.getLastD_eq_getLast?]
  cases e : j.got.getLast? with
  | none => rfl
  | some w => exact fair.zeros w (List.mem_of_getLast? e)

/-- Receiving a word from a script, in any state. -/
theorem rxWord_scripted {s : State} {n : Nat} {w : Word} {ws : List Word} {e : Tape}
    (answers : s.env = Env.script s.cfg n (w :: ws) e) :
    s.rxWord = (w, s.put (Env.script s.cfg n ws e) s.cs (rxEvents w)) := by
  have begins : s = s.put (Env.script s.cfg n (w :: ws) e) s.cs [] := by
    rw [← answers]
    exact put_self s
  conv_lhs => rw [begins]
  exact script_receive w

theorem sample_scripted {s : State} {n : Nat} {ws : List Word} {e : Tape}
    (answers : s.env = Env.script s.cfg (n + 1) ws e) :
    s.sample.1 = s.cfg.readyLevel ∧ s.sample.2.env = Env.script s.cfg n ws e := by
  simp [State.sample, answers, Env.script, Env.level, List.replicate_succ, Env.observe]

theorem askOpen_env_scripted {s : State} {n : Nat} {ws : List Word} {e : Tape}
    (answers : s.env = Env.script s.cfg n ws e) : ∃ e', s.askOpen.2.env = Env.script s.cfg n ws e' := by
  rw [askOpen_env, observe_opened, answers]
  obtain ⟨rdy, rx, opens⟩ := e
  cases opens with
  | nil => exact ⟨⟨rdy, rx, []⟩, rfl⟩
  | cons ok oks => exact ⟨⟨rdy, rx, oks⟩, rfl⟩

/-- What a primitive leads to under a fair environment: no wait, and if the operation goes on the environment is fair
for the rest. -/
def Flow.Ends (ps : List Prim) : Flow → Prop
  | .go j s => s.Fair j ps
  | .hold _ _ _ => False
  | .done _ _ | .raise _ _ _ => True

section
variable {s : State} {j : Job} {ps : List Prim}

/-- The gate samples ready. -/
theorem pollGate_ends (fair : s.Fair j (.gate :: ps)) : (pollGate j s).Ends ps := by
  obtain ⟨e, answers⟩ := fair.answers
  rw [List.count_cons_self, List.countP_cons_of_neg (by simp [Prim.receives])] at answers
  obtain ⟨sampled, left⟩ := sample_scripted answers
  have ready : lineReady s.cfg s.sample.1 = true := by simp [lineReady, sampled]
  obtain ⟨-, flow⟩ | ⟨notReady, -⟩ | ⟨notReady, -⟩ := pollGate_cases j s
  · rw [flow]
    exact ⟨fair.zeros, e, left⟩
  all_goals cases ready.symm.trans notReady

/-- The display wait tests a status word that is zero. -/
theorem pollDisplay_ends {defer : Bool} (fair : s.Fair j (.dpyTest defer :: ps)) : (pollDisplay defer j s).Ends ps := by
  have notBusy : statusBusy j.last = false := by rw [fair.last_eq_zero]; rfl
  obtain ⟨-, flow⟩ | ⟨busy, -⟩ | ⟨busy, -⟩ | ⟨busy, -⟩ := pollDisplay_cases defer j s
  · rw [flow]
    exact fair.unasked ⟨nofun, rfl⟩ rfl (fun w isIn => fair.zeros w (List.mem_of_mem_dropLast isIn))
      (fun _ _ e same => ⟨e, same⟩)
  all_goals cases notBusy.symm.trans busy

/-- A word received is zero, and is the next of the script. -/
theorem rxWord_fair {p : Prim} (receives : p.receives = true) (fair : s.Fair j (p :: ps)) :
    s.rxWord.1 = 0 ∧ s.rxWord.2.Fair j ps := by
  obtain ⟨e, answers⟩ := fair.answers
  rw [List.count_cons_of_ne (by rintro rfl; cases receives), List.countP_cons_of_pos receives,
    List.replicate_succ] at answers
  rw [rxWord_scripted answers]
  exact ⟨rfl, fair.zeros, e, rfl⟩

theorem perform_ends {p : Prim} (fair : s.Fair j (p :: ps)) : (perform p j s).Ends ps := by
  have on {s' : State} (asksNothing : p ≠ .gate ∧ p.receives = false) (cfg : s'.cfg = s.cfg)
      (same : ∀ n ws e, s.env = Env.script s.cfg n ws e → ∃ e', s'.env = Env.script s.cfg n ws e') : s'.Fair j ps :=
    fair.unasked asksNothing cfg fair.zeros same
  cases p with
  | gate => exact pollGate_ends fair
  | dpyTest defer => exact pollDisplay_ends fair
  | rxDummy => exact (rxWord_fair rfl fair).2
  | rxWord =>
    obtain ⟨isZero, zeros, answers⟩ := rxWord_fair rfl fair
    refine ⟨fun w isIn => ?_, answers⟩
    obtain before | rfl := List.mem_append.mp isIn |>.imp_right List.mem_singleton.mp
    · exact zeros w before
    · exact isZero
  | tmaCheck t =>
    obtain ⟨r, d, -, -, ⟨flow, -⟩ | ⟨flow, -⟩⟩ := checkTma_cases t j s <;> rw [perform, flow]
    · exact on ⟨nofun, rfl⟩ rfl fun _ _ e same => ⟨e, same⟩
    · trivial
  | claim =>
    obtain ⟨-, flow⟩ | ⟨-, flow⟩ := claimTransport_cases j s <;> rw [perform, flow]
    · exact on ⟨nofun, rfl⟩ rfl fun _ _ _ => askOpen_env_scripted
    · trivial
  | raiseLate | endIfVcom v =>
    simp only [perform]
    split
    · trivial
    · exact on ⟨nofun, rfl⟩ rfl fun _ _ e same => ⟨e, same⟩
  | storeInfo => exact on ⟨nofun, rfl⟩ (by simp) fun _ _ e same => ⟨e, by simp [same]⟩
  | _ => exact on ⟨nofun, rfl⟩ (by simp) fun _ _ e same => ⟨e, by simp [same]⟩

/-- A run under a fair environment comes to an end, whatever its sequence. -/
theorem runPrims_ends (fair : s.Fair j ps) : (runPrims ps j s).seq = .idle := by
  induction ps generalizing j s with
  | nil => rfl
  | cons p ps ih =>
    have ends := perform_ends fair
    rw [runPrims_cons]
    generalize perform p j s = flow at ends
    cases flow with
    | go j' s' => exact ih ends
    | hold again j' s' => exact ends.elim
    | done j' s' => rfl
    | raise f j' s' => rfl

end

theorem wireBytes_zeros (k : Nat) : wireBytes (List.replicate k 0) = List.replicate (2 * k) 0 := by
  induction k with
  | zero => rfl
  | succ k ih =>
    rw [List.replicate_succ, wireBytes, List.flatMap_cons, ← wireBytes, ih]
    rfl

/-- An instruction executed in an idle block ends, if the environment is fair for its sequence. -/
theorem exec_ends (i : Instr) {s : State} (idle : s.seq = .idle) (fair : s.Fair (jobOf s i) (bodyOf s i)) :
    ∃ t, exec i s = .next t ∧ t.seq = .idle := by
  obtain ⟨r, e⟩ | ⟨w, b, -, -, e⟩ | ⟨-, -, e⟩ := exec_cases i s
  · exact ⟨_, e, idle⟩
  · exact ⟨_, e, idle⟩
  · exact ⟨_, e, runPrims_ends (s := { s with resp := none }) ⟨fair.zeros, fair.answers⟩⟩

/-- Settles O31: as many ready samples as the instruction's sequence has gates, and two zero bytes for each word it
receives, are long enough (`exec_ends`): no poll of it fails, since every status word is zero. -/
theorem everyInstrEndsUnderFairOracle : Obligations.EveryInstrEndsUnderFairOracle := by
  intro i s idle
  refine ⟨(bodyOf s i).count .gate, 2 * (bodyOf s i).countP Prim.receives, fun e => exec_ends i idle ⟨nofun, ?_⟩⟩
  rw [← wireBytes_zeros]
  exact ⟨{ e with opens := true :: e.opens }, rfl⟩

end Sys2Proof.Machine
end
